-- ==== Sys2Proof/Word.lean ====
section
/-! DEFINITION. The byte and the opcode field, and the plainest arithmetic of the block.

The block moves bytes and never wider units (R50). Addresses, lengths, offsets, counts and bank indices are unsigned
integers whose register widths are parameters, and no rule of the spec wraps (R12, R13, decision D1): they are `Nat`
here, and the one signed counter (ERASE's remaining, R161) is an `Int`. Log entry 1. -/

namespace Sys2Proof

/-- R12: a byte is 8 bits. -/
abbrev Byte := BitVec 8

/-- R82: the field `CMD[3:0]`. -/
abbrev Opcode := BitVec 4

/-- `ceil(log2 n)`, used for the widths `BANK_W` (R8) and of `poll_cnt` (R25); 0 at `n <= 1`. -/
def ceilLog2 (n : Nat) : Nat := if n ≤ 1 then 0 else Nat.log2 (n - 1) + 1

/-- R13: `ceil(a / b)` for a positive `b`. -/
def ceilDiv (a b : Nat) : Nat := (a + b - 1) / b

end Sys2Proof
end

