-- ==== Sys2Proof/Config.lean ====
section
/-! DEFINITION. What is fixed for one device (the parameters of R8), what the spec leaves open at every call of the
peripheral (the oracle's answers, R202, R203), and the free values.

The configuration is held in State (R20 calls it configuration state), so every statement over all states is a statement
over all configurations. `Config.hardware` is the one `State.reset` holds: the spec's values where R8 gives one, and the
numbers named in log entry 2 where R8 says OPEN. -/

namespace Sys2Proof

/-- R8, R160, R167: how ERASE accounts for the requested range. This hardware takes `perGranule`. -/
inductive EraseMode where
  | perGranule
  | overlap
deriving DecidableEq, Repr, Inhabited

/-- R8: the parameters of the block, under the names of its table. `SR_LEN` is the length of `srExpected`. -/
structure Config where
  aw               : Nat          -- AW
  paW              : Nat          -- PA_W
  perrW            : Nat          -- PERR_W
  totalSize        : Nat          -- TOTAL_SIZE
  readGran         : Nat          -- READ_GRAN
  progGran         : Nat          -- PROG_GRAN
  eraseGran        : Nat          -- ERASE_GRAN
  window           : Nat          -- W
  baseAddress      : Nat          -- BASE_ADDRESS
  pollLimit        : Nat          -- POLL_LIMIT
  typeString       : List Byte    -- TYPE_STRING
  eraseMode        : EraseMode    -- ERASE_STEP_MODE
  openMismatchCode : Nat          -- OPEN_MISMATCH_CODE
  srExpected       : List Byte    -- SR_EXPECTED
  cmdWren          : Byte         -- CMD_WREN
  cmdWrsr          : Byte         -- CMD_WRSR
  cmdRdsr          : Byte         -- CMD_RDSR
  periphConfig     : Nat          -- PERIPH_CONFIG, an opaque token
deriving DecidableEq, Repr, Inhabited

/-- R8: `W`, `TYPE_STRING` and `ERASE_STEP_MODE` are this hardware's values (R8, R184). DESIGN CHOICE (log entry 2): R8
leaves every other parameter OPEN; the numbers are those of the spec's test configuration TC1. -/
def Config.hardware : Config where
  aw := 32
  paW := 32
  perrW := 8
  totalSize := 0x8000000
  readGran := 1
  progGran := 0x100
  eraseGran := 0x1000
  window := 0x4000000
  baseAddress := 0x10000000
  pollLimit := 4
  typeString := [0x51, 0x53, 0x50, 0x49, 0x46, 0x4C, 0x41, 0x53, 0x48]
  eraseMode := .perGranule
  openMismatchCode := 0xFF
  srExpected := [0x40]
  cmdWren := 0x06
  cmdWrsr := 0x01
  cmdRdsr := 0x05
  periphConfig := 0

/-- One answer of the peripheral oracle (R202, R203): everything the spec leaves open at one primitive call.
No rule constrains any field; what a field decides, and where it is ignored, is said in Machine/Ops.lean. -/
structure Answer where
  /-- the status code the call returns (R190, R202), taken modulo `2^PERR_W` -/
  status  : Nat
  /-- the operation in flight, if any, has completed by the time of this call (R63, R203) -/
  settled : Bool
  /-- the device's busy condition after the call, where the spec leaves it open: after a failed `program` or
  `erase_block` (R219), and after a call to a busy or an unopened device (U3, U9) -/
  busy    : Bool
  /-- `active_bank` after the call, where the spec leaves it open (U6, U20, U3) -/
  bank    : Nat
  /-- the bytes a `direct_read` returns (R193), and the bytes the call itself leaves open (U3, U7, U10) -/
  data    : List Byte
  /-- the bytes the completion of the operation in flight leaves open (R61, U7) -/
  cells   : List Byte
  /-- the flash cells the call changes where the spec leaves its whole effect open (U3, U9, U20) -/
  wild    : List (Nat × Byte)
deriving DecidableEq, Repr, Inhabited

/-- Free value (log entry 4): the answer to the `n`-th primitive call where State's `script` has run out. -/
opaque Config.freeAnswer : Nat → Answer

/-- Free value (log entry 4): byte `i` of what the `n`-th primitive call leaves open, where the answer's own `data` is
too short. -/
opaque Config.freeByte : Nat → Nat → Byte

/-- Free value (log entry 4): byte `i` of what the completion seen by the `n`-th primitive call leaves open, where the
answer's own `cells` is too short. -/
opaque Config.freeCell : Nat → Nat → Byte

end Sys2Proof
end

