-- ==== Sys2Proof/Syntax.lean ====
section
/-! DEFINITION. The host commands (R84), their three aliases (R93), the command descriptor (R81), and the two reasons
for which a descriptor is a reserved encoding (R87). -/

namespace Sys2Proof

/-- R84, R92, R93: one constructor per row of spec/opcode_table.json. `bv` is the buffer reference (R86), `addr` and
`len` are the operands of R85, used as they are. Formats (R83): T for READ, PROGRAM and WRITE, E for ERASE, Q for the
rest; the fields a format ignores are no operands. INIT, DEINIT and WRITE are other names for the words of OPEN, CLOSE
and PROGRAM (R93): the decoder never yields them, a host that spells a command by name may. -/
inductive Instr where
  | openCmd
  | closeCmd
  | read (bv : Bool) (addr len : Nat)
  | program (bv : Bool) (addr len : Nat)
  | erase (addr len : Nat)
  | size
  | getReadSize
  | getProgramSize
  | getEraseSize
  | getType
  | initCmd
  | deinitCmd
  | write (bv : Bool) (addr len : Nat)
deriving DecidableEq, Repr

/-- R81: the command descriptor `{CMD, ADDR, LEN}`; `ADDR` and `LEN` are unsigned integers of `AW` bits. -/
structure Descriptor where
  cmd  : BitVec 8
  addr : Nat
  len  : Nat
deriving DecidableEq, Repr

/-- R87: why a descriptor is a reserved encoding. -/
inductive Reserved where
  /-- `CMD[7:5]` is not zero -/
  | reservedBits
  /-- `CMD[3:0]` is one of `0xA` to `0xF` -/
  | reservedOpcode
deriving DecidableEq, Repr

end Sys2Proof
end

