-- ==== Sys2Proof/WellFormed.lean ====
section
/-! DEFINITION. Which configurations are configurations of this hardware (R9, R10 and the value column of R8), and
which commands and descriptors the `AW`-bit fields of port HC can carry (R81, R85). -/

namespace Sys2Proof

/-- R9, R10, and the constraints in R8's value column: a configuration that breaks one of them is not a configuration
of this hardware. `0 < window` makes the divisions of R13 those by a positive number. -/
def Config.wf (c : Config) : Bool :=
  decide (0 < c.window ∧ 0 < c.totalSize ∧ 0 < c.readGran ∧ 0 < c.progGran ∧ 0 < c.eraseGran ∧
    c.window % c.readGran = 0 ∧ c.window % c.progGran = 0 ∧ c.window % c.eraseGran = 0 ∧
    c.totalSize < 2 ^ c.aw ∧ c.totalSize % c.eraseGran = 0 ∧ c.baseAddress + c.window ≤ 2 ^ c.paW ∧
    1 ≤ c.pollLimit ∧ 1 ≤ c.perrW ∧ c.openMismatchCode ≠ 0 ∧ c.openMismatchCode < 2 ^ c.perrW)

/-- R81, R85: a descriptor's `ADDR` and `LEN` are `AW`-bit values. -/
def Descriptor.fits (c : Config) (d : Descriptor) : Bool := d.addr < 2 ^ c.aw && d.len < 2 ^ c.aw

/-- R85: both operands may hold any `AW`-bit value, and nothing else is checked of them (R52). -/
def Instr.wf (c : Config) : Instr → Bool
  | .openCmd | .closeCmd | .size | .getReadSize | .getProgramSize | .getEraseSize | .getType => true
  | .initCmd | .deinitCmd => true
  | .read _ a n => a < 2 ^ c.aw && n < 2 ^ c.aw
  | .program _ a n => a < 2 ^ c.aw && n < 2 ^ c.aw
  | .erase a n => a < 2 ^ c.aw && n < 2 ^ c.aw
  | .write _ a n => a < 2 ^ c.aw && n < 2 ^ c.aw

end Sys2Proof
end

