-- ==== Sys2Proof/Decode.lean ====
section
/-! DEFINITION. The decoder of command descriptors (R82 to R87), total on every descriptor and rejecting by name; after
it the encoder, written from the same table (R84), and the two packings of a descriptor into one number. -/

namespace Sys2Proof

/-- R82: `CMD[3:0]`, the opcode. -/
def cmdOp (cmd : BitVec 8) : Opcode := cmd.extractLsb' 0 4

/-- R82, R86: `CMD[4]`, the buffer reference. -/
def cmdBv (cmd : BitVec 8) : Bool := cmd.getLsbD 4

/-- R82: `CMD[7:5]`, reserved. -/
def cmdReservedBits (cmd : BitVec 8) : BitVec 3 := cmd.extractLsb' 5 3

/-- R83, R84, R87: the command a descriptor encodes, or why it is a reserved encoding. -/
def decode (d : Descriptor) : Except Reserved Instr :=
  if cmdReservedBits d.cmd ≠ 0 then .error .reservedBits
  else match (cmdOp d.cmd).toNat with
    | 0 => .ok .openCmd
    | 1 => .ok .closeCmd
    | 2 => .ok (.read (cmdBv d.cmd) d.addr d.len)
    | 3 => .ok (.program (cmdBv d.cmd) d.addr d.len)
    | 4 => .ok (.erase d.addr d.len)
    | 5 => .ok .size
    | 6 => .ok .getReadSize
    | 7 => .ok .getProgramSize
    | 8 => .ok .getEraseSize
    | 9 => .ok .getType
    | _ => .error .reservedOpcode

/-- R84, R93: the opcode of each command; an alias has its command's. -/
def Instr.opcode : Instr → Opcode
  | .openCmd | .initCmd => 0
  | .closeCmd | .deinitCmd => 1
  | .read _ _ _ => 2
  | .program _ _ _ | .write _ _ _ => 3
  | .erase _ _ => 4
  | .size => 5
  | .getReadSize => 6
  | .getProgramSize => 7
  | .getEraseSize => 8
  | .getType => 9

/-- R82: the byte `CMD` of an opcode and a buffer reference, its reserved bits zero. -/
def cmdByte (op : Opcode) (bv : Bool) : BitVec 8 := (0#3 ++ BitVec.ofBool bv) ++ op

/-- R83, R84: the descriptor of a command; the fields its format ignores are zero. -/
def encode (i : Instr) : Descriptor :=
  match i with
  | .read bv a n | .program bv a n | .write bv a n => ⟨cmdByte i.opcode bv, a, n⟩
  | .erase a n => ⟨cmdByte i.opcode false, a, n⟩
  | .openCmd | .closeCmd | .size | .getReadSize | .getProgramSize | .getEraseSize | .getType | .initCmd | .deinitCmd =>
    ⟨cmdByte i.opcode false, 0, 0⟩

/-- R93: the command an alias names (no expansion: the same encoding and the same rule). -/
def Instr.canonical : Instr → Instr
  | .initCmd => .openCmd
  | .deinitCmd => .closeCmd
  | .write bv a n => .program bv a n
  | i => i

/-- R81, R12: the descriptor as the one word `CMD ++ ADDR ++ LEN`, `CMD` in the high bits (72 bits at `AW = 32`). -/
def Descriptor.pack (aw : Nat) (d : Descriptor) : Nat := (d.cmd.toNat * 2 ^ aw + d.addr) * 2 ^ aw + d.len

/-- R81, R12: the descriptor a word `CMD ++ ADDR ++ LEN` holds. -/
def Descriptor.unpack (aw : Nat) (w : Nat) : Descriptor :=
  ⟨BitVec.ofNat 8 (w / 2 ^ aw / 2 ^ aw), w / 2 ^ aw % 2 ^ aw, w % 2 ^ aw⟩

/-- The descriptor whose bits are `w` as spec/opcode_table.json numbers them: `CMD` is the first word (bits 7 to 0), the
bits of `ADDR` and then of `LEN` count on from it, and the bits from `nbits` up are zero. -/
def Descriptor.ofTableBits (aw nbits w : Nat) : Descriptor :=
  let v := w % 2 ^ nbits
  ⟨BitVec.ofNat 8 v, v / 2 ^ 8 % 2 ^ aw, v / 2 ^ (8 + aw) % 2 ^ aw⟩

/-- What the decoder reads from a row of the opcode table, `AW` being that of `Config.hardware`. -/
def decodeTableWord (nbits w : Nat) : Option Instr :=
  match decode (Descriptor.ofTableBits Config.hardware.aw nbits w) with
  | .ok i => some i
  | .error _ => none

end Sys2Proof
end

