-- ==== Sys2Proof/Machine/State.lean ====
section
/-! DEFINITION. The state of the block and of the peripheral and host it runs against, as plain data, and the state
after reset. INVENTORY.md, heading State, lists every field with its rule. -/

namespace Sys2Proof.Machine

/-- R23: the 14 states of the sequencer. DESIGN CHOICE (log entry 26): `S_HS_RDBK` is two of them here, `hsRdbk` before
its first primitive call and `hsRead` before its second, so that no sequencer step makes two. -/
inductive Fsm where
  | idle | check | xlate | bank | seg | xfer | poll | adv | hsOpen | hsWren | hsWrsr | hsRdbk | hsRead
  | close | resp
deriving DecidableEq, Repr

/-- R15, R90: the five status kinds. -/
inductive Kind where
  | ok | invalidArgument | invalidAddress | timeout | deviceError
deriving DecidableEq, Repr

/-- R25: the working registers. `remaining` is the one signed register (R161). -/
structure Regs where
  op        : Opcode
  bufValid  : Bool
  addr      : Nat
  len       : Nat
  cursor    : Nat
  bufOff    : Nat
  remaining : Int
  segLen    : Nat
  bank      : Nat
  pa        : Nat
  pollCnt   : Nat
  stKind    : Kind
  stInfo    : Nat
  value     : Nat
deriving DecidableEq, Repr

/-- R89: the response record. -/
structure Response where
  kind  : Kind
  info  : Nat
  value : Nat
  str   : List Byte
deriving DecidableEq, Repr

/-- R70, R190: one entry of a command's trace, a primitive call with its arguments and results. -/
inductive Prim where
  | peripheralOpen (config st : Nat)
  | directWrite (bytes : List Byte) (length : Nat) (keepSelected : Bool) (st : Nat)
  | directRead (length st : Nat) (bytes : List Byte)
  | statusGet (err : Nat) (busy : Bool)
  | bankSelect (bank st : Nat)
  | program (source : List Byte) (pa length st : Nat)
  | eraseBlock (pa length st : Nat)
  | peripheralClose (st : Nat)
  | memRead (pa length : Nat) (bytes : List Byte)
deriving DecidableEq, Repr

/-- One command the host will issue: its descriptor, and the buffer it attaches to port HB for it (`none` leaves the
buffer that is attached; R51, R81). -/
structure Request where
  desc : Descriptor
  buf  : Option (List Byte)
deriving DecidableEq, Repr

/-- Flash cells: pairs of a device address and a byte, addresses strictly rising, no cell equal to what an unlisted
address reads as (`Memory.wf`, Machine/Ops.lean). -/
abbrev Memory := List Host.Cell

/-- R34 (a): the program or erase in flight in the device, by device address. -/
inductive InFlight where
  /-- accepted `Periph.program`: completes as R61 says -/
  | program (da : Nat) (src : List Byte)
  /-- accepted `Periph.erase_block`: completes as R60 says -/
  | erase (da n : Nat)
  /-- its poll timed out (U7): the bytes are between what the array holds and `target` -/
  | late (da : Nat) (target : List Byte)
  /-- its primitive or its poll reported an error (U7): the bytes are any value -/
  | spoiled (da n : Nat)
  /-- an operation of which the spec says nothing (U3, U9, U20) -/
  | unknown
deriving DecidableEq, Repr

/-- R34 (b): the peripheral's own condition. -/
inductive Condition where
  | closed | partly | configured
deriving DecidableEq, Repr

/-- What the block draws from the oracle at one primitive call: the answer and the number of the call. -/
structure Drawn where
  ans : Answer
  no  : Nat
deriving DecidableEq, Repr

/-- Why the machine stops with a fault. -/
inductive Fault where
  /-- Raised by `step` for a request whose `ADDR` or `LEN` has more than `AW` bits: no descriptor of port HC carries it
  (R81). Safe: no host can present it. -/
  | descriptorTooWide
deriving DecidableEq, Repr

/-- Why the machine refuses to run. -/
inductive Refusal where
  /-- Raised by exec for an instruction that has no meaning yet. Safe. -/
  | notModelled (mnemonic : String)
  /-- Raised by `step` when the configuration breaks R9 or R10: "a model refuses it" (R10, U13). Safe. -/
  | badConfiguration
  /-- Raised by a command's meaning when a command is running: port HC accepts a descriptor only in `S_IDLE` (R80,
  R226, U1). Safe. -/
  | commandWhileRunning
  /-- Raised by READ, PROGRAM and WRITE, after validation, when the host's buffer is shorter than `LEN` (R51, R258,
  U14). Safe. -/
  | bufferTooShort
deriving DecidableEq, Repr

/-- Everything the spec gives the machine. -/
structure State where
  -- the block
  cfg        : Config            -- R20
  opened     : Bool              -- R22
  fsm        : Fsm               -- R23
  regs       : Regs              -- R25
  hr         : Option Response   -- port HR: the response of the last command, none while it is pending (R80, R37)
  trace      : List Prim         -- the trace of the command last accepted, oldest entry first (R70)
  -- the host
  hc         : List Request      -- port HC: the commands the host will issue, the next one first (R16, R80)
  hb         : List Byte         -- port HB: the host buffer, offset 0 first (R51)
  resets     : List Nat          -- the reset input: the sequencer steps to each reset, from the one before (R240, R258)
  -- the peripheral with its flash
  activeBank : Nat               -- R30
  devError   : Nat               -- DeviceStatus.error as last sampled (R30)
  inFlight   : Option InFlight   -- R34 (a); DeviceStatus.busy is State.busy
  condition  : Condition         -- R34 (b)
  flash      : Memory            -- R59
  -- the oracle (the model's own)
  script     : List Answer       -- the answers of the next primitive calls (R202)
  draws      : Nat               -- how many answers have been drawn
deriving DecidableEq, Repr

/-- R37: unspecified after reset. DESIGN CHOICE (log entry 3): all zero, the status latch Ok. -/
def Regs.reset : Regs where
  op := 0
  bufValid := false
  addr := 0
  len := 0
  cursor := 0
  bufOff := 0
  remaining := 0
  segLen := 0
  bank := 0
  pa := 0
  pollCnt := 0
  stKind := .ok
  stInfo := 0
  value := 0

/-- R37, R240: a device of configuration `c` right after its first reset. `opened`, `fsm` and `hr` are the spec's; the
registers, the host's inputs and the peripheral's condition are named in log entries 3, 5 and 6. -/
def State.resetOf (c : Config) : State where
  cfg := c
  opened := false
  fsm := .idle
  regs := Regs.reset
  hr := none
  trace := []
  hc := []
  hb := []
  resets := []
  activeBank := 0
  devError := 0
  inFlight := none
  condition := .closed
  flash := []
  script := []
  draws := 0

/-- R37: the machine right after reset, its configuration that of log entry 2. -/
def State.reset : State := State.resetOf Config.hardware

end Sys2Proof.Machine
end

