-- ==== Sys2Proof/Machine/Flags.lean ====
section
/-! DEFINITION. The one flag-like value of the block, the status latch `(st_kind, st_info)` (R28), and the codes of the
sequencer states and the status kinds (R23, R90). -/

namespace Sys2Proof.Machine

/-- R23: the code of a sequencer state in the 4-bit register `fsm`; both halves of `S_HS_RDBK` have its code (log entry
26). -/
def Fsm.code : Fsm → BitVec 4
  | .idle => 0
  | .check => 1
  | .xlate => 2
  | .bank => 3
  | .seg => 4
  | .xfer => 5
  | .poll => 6
  | .adv => 7
  | .hsOpen => 8
  | .hsWren => 9
  | .hsWrsr => 10
  | .hsRdbk | .hsRead => 11
  | .close => 12
  | .resp => 13

/-- R90: the code of a status kind in the 3-bit field `kind`. -/
def Kind.code : Kind → BitVec 3
  | .ok => 0
  | .invalidArgument => 1
  | .invalidAddress => 2
  | .timeout => 3
  | .deviceError => 4

/-- R28, R216: what a failing step writes to the status latch. -/
def Regs.latch (k : Kind) (info : Nat) (r : Regs) : Regs := { r with stKind := k, stInfo := info }

/-- R28: `S_CHECK` sets the latch to Ok before any use, and clears `value` (R26). -/
def Regs.clearLatch (r : Regs) : Regs := { r with stKind := .ok, stInfo := 0, value := 0 }

end Sys2Proof.Machine
end

