-- ==== Sys2Proof/Machine/Operands.lean ====
section
/-! DEFINITION. AddressValidator and BankTranslator (R110 to R122): what the operands of a command are checked for and
turned into, and the widths that depend on the configuration (R8, R25). Pure functions of their inputs and of the
configuration (R113, R114). -/

namespace Sys2Proof.Machine

/-- R8: `NBANKS = ceil(TOTAL_SIZE / W)`. -/
def nBanks (c : Config) : Nat := ceilDiv c.totalSize c.window

/-- R8: `BANK_W = max(1, ceil(log2(NBANKS)))`. -/
def bankW (c : Config) : Nat := max 1 (ceilLog2 (nBanks c))

/-- R25: the width of `poll_cnt`. -/
def pollW (c : Config) : Nat := ceilLog2 (c.pollLimit + 1)

/-- R110: VALIDATE_BUF. -/
def validateBuf (bv : Bool) : Kind := if bv then .ok else .invalidArgument

/-- R111: VALIDATE_RANGE, over the unbounded integers. -/
def validateRange (c : Config) (address length : Nat) : Kind :=
  if address + length > c.totalSize then .invalidAddress else .ok

/-- R114: the bank index of TRANSLATE. -/
def translateBank (c : Config) (la : Nat) : Nat := la / c.window

/-- R114: the physical address of TRANSLATE. -/
def translatePa (c : Config) (la : Nat) : Nat := c.baseAddress + la % c.window

/-- R116: REMAIN_WINDOW. -/
def remainWindow (c : Config) (la : Nat) : Nat := c.window - la % c.window

/-- R117: REMAIN_PAGE. -/
def remainPage (c : Config) (la : Nat) : Nat := c.progGran - la % c.progGran

/-- R118: REMAIN_BLOCK. -/
def remainBlock (c : Config) (la : Nat) : Nat := c.eraseGran - la % c.eraseGran

/-- R122: ALIGN_DOWN_BLOCK. -/
def alignDownBlock (c : Config) (la : Nat) : Nat := la / c.eraseGran * c.eraseGran

/-- R160, R167: the logical address ERASE starts its cursor at. -/
def eraseStart (c : Config) (address : Nat) : Nat :=
  match c.eraseMode with
  | .perGranule => alignDownBlock c address
  | .overlap => address

/-- R160, R167: by how much ERASE advances its cursor and counts down `remaining`. -/
def eraseStep (c : Config) (cursor : Nat) : Nat :=
  match c.eraseMode with
  | .perGranule => c.eraseGran
  | .overlap => remainBlock c cursor

/-- R140, R150, R160, R167: the logical address that `S_XLATE` translates. READ and PROGRAM take the cursor, ERASE the
first byte of the block that holds it (in `perGranule` mode the cursor is that byte already). -/
def segmentStart (c : Config) (op : Opcode) (cursor : Nat) : Nat :=
  if op = 4 then
    match c.eraseMode with
    | .perGranule => cursor
    | .overlap => alignDownBlock c cursor
  else cursor

/-- R140, R150, R160: the length of the segment that starts at the cursor. -/
def segmentLength (c : Config) (op : Opcode) (cursor : Nat) (remaining : Int) : Nat :=
  if op = 2 then min remaining.toNat (remainWindow c cursor)
  else if op = 3 then min remaining.toNat (remainPage c cursor)
  else c.eraseGran

/-- R140, R150, R160, R167: by how much `S_ADV` advances. -/
def advanceStep (c : Config) (op : Opcode) (cursor segLen : Nat) : Nat :=
  if op = 4 then eraseStep c cursor else segLen

end Sys2Proof.Machine
end

