-- ==== Sys2Proof/Machine/Ops.lean ====
section
/-! DEFINITION. The named operations over memory, the host buffer, the peripheral's primitives and the response path.

A primitive call is two functions: what it returns (`nextStatus`, `sampleBusy`, `directReadBytes`, `windowBytes`) and
the state it leaves (`bankSelect`, `program`, ...), both read from the one answer the call draws from the oracle.
Taking an error (R216) is the one operation `raise`; the way back to the host is `respond`. -/

namespace Sys2Proof.Machine

/-! ### The flash array (R59 to R62) -/

/-- R60: the erased-cell pattern, all bits set. DESIGN CHOICE (log entry 6): also what an unlisted cell reads as. -/
def erasedByte : Byte := 0xFF

/-- The canonical form of a memory: addresses strictly rising, no cell equal to what an unlisted address reads as. -/
abbrev Memory.wf (m : Memory) : Prop := m.Pairwise (fun a b => a.1 < b.1) ∧ ∀ c ∈ m, c.2 ≠ erasedByte

/-- Every listed cell lies in `[0, total)`: the flash array has `TOTAL_SIZE` bytes (R59). -/
abbrev Memory.below (total : Nat) (m : Memory) : Prop := ∀ c ∈ m, c.1 < total

/-- R59: one byte of the flash array. -/
def Memory.read : Memory → Nat → Byte
  | [], _ => erasedByte
  | (k, v) :: m, a => if k = a then v else Memory.read m a

/-- The bytes at `a .. a + n - 1`, ascending. -/
def Memory.readRange (m : Memory) (a n : Nat) : List Byte := (List.range n).map fun i => m.read (a + i)

/-- One byte stored, in canonical form. -/
def Memory.write : Memory → Nat → Byte → Memory
  | [], a, b => if b = erasedByte then [] else [(a, b)]
  | (k, v) :: m, a, b =>
    if a < k then (if b = erasedByte then (k, v) :: m else (a, b) :: (k, v) :: m)
    else if a = k then (if b = erasedByte then m else (a, b) :: m)
    else (k, v) :: Memory.write m a b

/-- One byte stored where the array has a cell (R59: it is `TOTAL_SIZE` bytes). -/
def Memory.put (total : Nat) (m : Memory) (a : Nat) (b : Byte) : Memory := if a < total then m.write a b else m

/-- The bytes `bs` stored from `a` on, ascending. -/
def Memory.store (total : Nat) : Memory → Nat → List Byte → Memory
  | m, _, [] => m
  | m, a, b :: bs => Memory.store total (m.put total a b) (a + 1) bs

/-- The cells of a list stored one after the other. -/
def Memory.storeCells (total : Nat) (m : Memory) (cells : List Host.Cell) : Memory :=
  cells.foldl (fun m c => m.put total c.1 c.2) m

/-- R60: the cells of `[a, a + n)` become `erasedByte`. -/
def Memory.eraseRange (m : Memory) (a n : Nat) : Memory := m.filter fun c => !(a ≤ c.1 && c.1 < a + n)

/-! ### The host buffer (R51) -/

/-- R14: BufRead. -/
def bufRead (hb : List Byte) (off n : Nat) : List Byte := (hb.drop off).take n

/-- R14: BufWrite; the other offsets keep their bytes (R51). -/
def bufWrite (hb : List Byte) (off : Nat) (bs : List Byte) : List Byte := hb.take off ++ bs ++ hb.drop (off + bs.length)

/-! ### The oracle (R202, R203) -/

/-- The answer to the `k`-th primitive call from now: the script's, and past its end a free value. -/
def State.answer (s : State) (k : Nat) : Answer := s.script.getD k (Config.freeAnswer (s.draws + k))

/-- What the next primitive call draws. -/
def State.drawn (s : State) : Drawn := ⟨s.answer 0, s.draws⟩

/-- The state once the next answer has been drawn. -/
def State.draw (s : State) : State := { s with script := s.script.tail, draws := s.draws + 1 }

/-- R190: the status code, an unsigned `PERR_W`-bit value; 0 is SUCCESS. -/
def Drawn.code (c : Config) (d : Drawn) : Nat := d.ans.status % 2 ^ c.perrW

/-- A `BANK_W`-bit value for `active_bank` where the spec leaves it open (U6, U20). -/
def Drawn.bank (c : Config) (d : Drawn) : Nat := d.ans.bank % 2 ^ bankW c

/-- Byte `i` of what the call itself leaves open. -/
def Drawn.byte (d : Drawn) (i : Nat) : Byte := d.ans.data.getD i (Config.freeByte d.no i)

/-- Byte `i` of what the completion of the operation in flight leaves open. -/
def Drawn.cell (d : Drawn) (i : Nat) : Byte := d.ans.cells.getD i (Config.freeCell d.no i)

/-- The first `n` bytes of what the call itself leaves open. -/
def Drawn.bytes (d : Drawn) (n : Nat) : List Byte := (List.range n).map d.byte

/-! ### The device (R59 to R63) -/

/-- R30: DeviceStatus.busy, 1 while a program or erase is in progress. -/
def State.busy (s : State) : Bool := s.inFlight.isSome

/-- R252, R253: the host has had Ok from OPEN with no CLOSE since, and the device is idle. Only then does the spec say
what a transfer primitive does; elsewhere every effect is open (log entry 7). -/
def State.ready (s : State) : Bool := s.opened && decide (s.condition = .configured) && !s.busy

/-- R59: the device address of a physical address under the current bank. -/
def State.deviceAddress (s : State) (pa : Nat) : Nat := s.activeBank * s.cfg.window + (pa - s.cfg.baseAddress)

/-- R61: what programming `src` at `da` makes of each byte: an erased byte takes `src[i]`, any other byte is open. -/
def programmed (d : Drawn) (m : Memory) (da : Nat) (src : List Byte) : List Byte :=
  src.mapIdx fun i b => if m.read (da + i) = erasedByte then b else d.cell i

/-- U7: anywhere between untouched and complete. DEDUCED (log entry 8): each bit is the old one or that of `target`. -/
def between (d : Drawn) (m : Memory) (da : Nat) (target : List Byte) : List Byte :=
  target.mapIdx fun i b =>
    let mask := d.cell (target.length + i)
    (m.read (da + i) &&& mask) ||| (b &&& ~~~mask)

/-- What the completion of an operation makes of the flash array (R60, R61, U7). -/
def InFlight.complete (total : Nat) (d : Drawn) (m : Memory) : InFlight → Memory
  | .program da src => m.store total da (programmed d m da src)
  | .erase da n => m.eraseRange da n
  | .late da target => m.store total da (between d m da target)
  | .spoiled da n => m.store total da ((List.range n).map d.cell)
  | .unknown => m.storeCells total d.ans.wild

/-- R16, R63: the device finishes its operation by itself, if the oracle says it has by now. -/
def State.settle (d : Drawn) (s : State) : State :=
  match s.inFlight with
  | none => s
  | some f => if d.ans.settled then { s with flash := f.complete s.cfg.totalSize d s.flash, inFlight := none } else s

/-- The state a primitive call finds: its answer drawn, and the device settled if it has finished. -/
def State.called (s : State) : State := s.draw.settle s.drawn

/-- The trace grows by one primitive call (R70). -/
def State.log (p : Prim) (s : State) : State := { s with trace := s.trace ++ [p] }

/-- U3, U9, U20: a call whose whole effect on the peripheral the spec leaves open. An idle device becomes busy only by
a call that it may have accepted as a program or an erase (R30, R203): `accepts`. -/
def State.havoc (accepts : Bool) (d : Drawn) (s : State) : State :=
  { s with
    activeBank := d.bank s.cfg
    flash := s.flash.storeCells s.cfg.totalSize d.ans.wild
    inFlight := if (s.busy || accepts) && d.ans.busy then some .unknown else none }

/-- U7, R219: the bytes of the segment at `da` are any value, and once more when its operation completes, if the device
is left busy. -/
def State.spoil (busy : Bool) (d : Drawn) (da n : Nat) (s : State) : State :=
  { s with
    flash := s.flash.store s.cfg.totalSize da (d.bytes n)
    inFlight := if busy then some (if s.inFlight = some .unknown then .unknown else .spoiled da n) else none }

/-- U7, R219: a poll has timed out; the operation may still be in progress, its bytes anywhere between untouched and
complete. -/
def State.late (d : Drawn) (s : State) : State :=
  match s.inFlight with
  | some (.program da src) =>
    let target := programmed d s.flash da src
    { s with flash := s.flash.store s.cfg.totalSize da (between d s.flash da target), inFlight := some (.late da target) }
  | some (.erase da n) =>
    let target := List.replicate n erasedByte
    { s with flash := s.flash.store s.cfg.totalSize da (between d s.flash da target), inFlight := some (.late da target) }
  | _ => s

/-! ### The primitives (R190 to R199) -/

/-- R190: the status code the next primitive call returns. -/
def State.nextStatus (s : State) : Nat := s.drawn.code s.cfg

/-- R194: the busy bit the next `status_get` returns. -/
def State.sampleBusy (s : State) : Bool := s.called.busy

/-- R194: `Periph.status_get`. It has no effect on the device. -/
def State.statusGet (s : State) : State :=
  { s.called with devError := s.nextStatus }.log (.statusGet s.nextStatus s.sampleBusy)

/-- R195: `Periph.bank_select`; after a failure `active_bank` is any value (U6). -/
def State.bankSelect (b : Nat) (s : State) : State :=
  let t := s.called
  State.log (.bankSelect b s.nextStatus)
    (if t.ready then { t with activeBank := if s.nextStatus = 0 then b else s.drawn.bank s.cfg } else t.havoc false s.drawn)

/-- R196: `Periph.program`; after a failure the segment's bytes are any value (U7), and so is `busy` (R219). -/
def State.program (src : List Byte) (pa n : Nat) (s : State) : State :=
  let t := s.called
  State.log (.program src pa n s.nextStatus)
    (if t.ready then
      if s.nextStatus = 0 then { t with inFlight := some (.program (t.deviceAddress pa) src) }
      else t.spoil s.drawn.ans.busy s.drawn (t.deviceAddress pa) n
    else t.havoc true s.drawn)

/-- R197: `Periph.erase_block`; after a failure the block's bytes are any value (U7), and so is `busy` (R219). -/
def State.eraseBlock (pa n : Nat) (s : State) : State :=
  let t := s.called
  State.log (.eraseBlock pa n s.nextStatus)
    (if t.ready then
      if s.nextStatus = 0 then { t with inFlight := some (.erase (t.deviceAddress pa) n) }
      else t.spoil s.drawn.ans.busy s.drawn (t.deviceAddress pa) n
    else t.havoc true s.drawn)

/-- R62, R199: one byte of the mapped window; past the end of the device (U10) and when the spec does not say what the
window shows (U3, R252) it is any value. -/
def State.windowByte (d : Drawn) (t : State) (pa i : Nat) : Byte :=
  if t.ready && decide (t.deviceAddress pa + i < t.cfg.totalSize) then t.flash.read (t.deviceAddress pa + i) else d.byte i

/-- R199: the bytes `MemRead(pa, n)` returns. -/
def State.windowBytes (pa n : Nat) (s : State) : List Byte := (List.range n).map (s.called.windowByte s.drawn pa)

/-- R62, R199: `MemRead` changes nothing of a device that is ready. -/
def State.memRead (pa n : Nat) (s : State) : State :=
  let t := s.called
  State.log (.memRead pa n (s.windowBytes pa n)) (if t.ready then t else t.havoc false s.drawn)

/-- R55, R219: what a call that configures or tears down the peripheral leaves: `active_bank` is open, and a busy
device makes the whole effect open (U3, U20). An idle device stays idle (R203). -/
def State.reconfigure (d : Drawn) (t : State) : State :=
  if t.busy then t.havoc false d else { t with activeBank := d.bank t.cfg }

/-- R191: `Periph.peripheral_open(PERIPH_CONFIG)`. -/
def State.peripheralOpen (s : State) : State :=
  { s.called.reconfigure s.drawn with condition := .partly }.log
    (.peripheralOpen s.cfg.periphConfig s.nextStatus)

/-- R192: `Periph.direct_write(bytes, length, keep_selected)`. -/
def State.directWrite (bytes : List Byte) (keep : Bool) (s : State) : State :=
  { s.called.reconfigure s.drawn with condition := .partly }.log
    (.directWrite bytes bytes.length keep s.nextStatus)

/-- R193: the bytes `Periph.direct_read(length)` returns. -/
def State.directReadBytes (n : Nat) (s : State) : List Byte := s.drawn.bytes n

/-- R193: `Periph.direct_read(length)`. -/
def State.directRead (n : Nat) (s : State) : State :=
  { s.called.reconfigure s.drawn with condition := .partly }.log
    (.directRead n s.nextStatus (s.directReadBytes n))

/-- R198: `Periph.peripheral_close()`. -/
def State.peripheralClose (s : State) : State :=
  { s.called.reconfigure s.drawn with condition := if s.nextStatus = 0 then .closed else .partly }.log
    (.peripheralClose s.nextStatus)

/-! ### Errors, the response, reset -/

/-- R14: `fsm <- STATE`. -/
def State.goto (f : Fsm) (s : State) : State := { s with fsm := f }

/-- R216: `raise <Error>(info)`. The one way in which a command ends early: the latch records the error, the sequencer
goes to `S_RESP`, and nothing else happens. -/
def State.raise (k : Kind) (info : Nat) (s : State) : State := { s with regs := s.regs.latch k info, fsm := .resp }

/-- R89, R216: the response record of the registers; an error carries no value, GET_TYPE the type string (R184). -/
def State.response (s : State) : Response where
  kind := s.regs.stKind
  info := s.regs.stInfo
  value := if s.regs.stKind = .ok then s.regs.value else 0
  str := if s.regs.op = 9 ∧ s.regs.stKind = .ok then s.cfg.typeString else []

/-- R216, R220: `S_RESP` delivers the response and the block is idle again. There is no other return from an error. -/
def State.respond (s : State) : State := { s with hr := some s.response, fsm := .idle }

/-- R240, R243: the reset input's effect. A running command is abandoned with no response; the configuration, the host's
buffer and everything outside the block stay as they are; the registers are unspecified (log entry 3). -/
def State.takeReset (s : State) : State :=
  { s with opened := false, fsm := .idle, regs := Regs.reset, hr := none, resets := s.resets.tail }

end Sys2Proof.Machine
end

