-- ==== Sys2Proof/Machine/Sequencer.lean ====
section
/-! DEFINITION. The sequencer (R23): what the controller does in one visit of each of its states, one sequencer step
with the reset input (R243), and a command run from its acceptance to its response. The meanings of the commands
(Machine/Read.lean and its neighbours) load the registers and call `command`. -/

namespace Sys2Proof.Machine

/-! ### S_CHECK -/

/-- R112, R140, R150, R160: `S_CHECK` loads the transfer's registers and starts the loop, or ends a transfer of length
zero at once (R145). -/
def State.loadTransfer (start : Nat) (s : State) : State :=
  { s with
    regs := { s.regs with cursor := start, bufOff := 0, remaining := (s.regs.len : Int) }
    fsm := if s.regs.len = 0 then .resp else .xlate }

/-- R111, R212: VALIDATE_RANGE on the command's operands, then the transfer that starts at `start`. -/
def State.checkRange (start : Nat) (s : State) : State :=
  match validateRange s.cfg s.regs.addr s.regs.len with
  | .ok => s.loadTransfer start
  | k => s.raise k 0

/-- R110, R112: VALIDATE_BUF first, then VALIDATE_RANGE. -/
def State.checkBuffer (s : State) : State :=
  match validateBuf s.regs.bufValid with
  | .ok => s.checkRange s.regs.addr
  | k => s.raise k 0

/-- R180 to R183: a query's value goes to the response. -/
def State.answerValue (v : Nat) (s : State) : State := { s with regs := { s.regs with value := v }, fsm := .resp }

/-- R160, R167: ERASE does not use `buf_off` (R25) and so leaves it alone. -/
def State.checkErase (s : State) : State :=
  match validateRange s.cfg s.regs.addr s.regs.len with
  | .ok =>
    { s with
      regs := { s.regs with cursor := eraseStart s.cfg s.regs.addr, remaining := (s.regs.len : Int) }
      fsm := if s.regs.len = 0 then .resp else .xlate }
  | k => s.raise k 0

/-- R23, code 1: the latch is cleared (R28), and the opcode selects the command. An opcode of `0xA` to `0xF` is a
reserved encoding (R87, R211). -/
def State.visitCheck (s : State) : State :=
  let s := { s with regs := s.regs.clearLatch }
  match s.regs.op.toNat with
  | 0 => s.goto (if s.opened then .resp else .hsOpen)
  | 1 => s.goto .close
  | 2 => s.checkBuffer
  | 3 => s.checkBuffer
  | 4 => s.checkErase
  | 5 => s.answerValue s.cfg.totalSize
  | 6 => s.answerValue s.cfg.readGran
  | 7 => s.answerValue s.cfg.progGran
  | 8 => s.answerValue s.cfg.eraseGran
  | 9 => s.goto .resp
  | _ => s.raise .invalidArgument 0

/-! ### The segment loop -/

/-- R23, code 2: step 1, TRANSLATE. -/
def State.visitXlate (s : State) : State :=
  let la := segmentStart s.cfg s.regs.op s.regs.cursor
  { s with regs := { s.regs with bank := translateBank s.cfg la, pa := translatePa s.cfg la }, fsm := .bank }

/-- R23, code 3: step 1, `bank_select`, at the head of every iteration (R143). -/
def State.visitBank (s : State) : State :=
  let t := s.bankSelect s.regs.bank
  if s.nextStatus = 0 then t.goto .seg else t.raise .deviceError s.nextStatus

/-- R23, code 4: the segment's length. -/
def State.visitSeg (s : State) : State :=
  { s with
    regs := { s.regs with segLen := segmentLength s.cfg s.regs.op s.regs.cursor s.regs.remaining }
    fsm := .xfer }

/-- R131: `poll_cnt <- POLL_LIMIT` on the transition from `S_XFER` to `S_POLL`. -/
def State.startPoll (s : State) : State := { s with regs := { s.regs with pollCnt := s.cfg.pollLimit }, fsm := .poll }

/-- R140, step 3: the segment is copied from the window to the host buffer. -/
def State.xferRead (s : State) : State :=
  { s.memRead s.regs.pa s.regs.segLen with
    hb := bufWrite s.hb s.regs.bufOff (s.windowBytes s.regs.pa s.regs.segLen)
    fsm := .adv }

/-- R150, step 3: the program primitive; on success the poll starts, and no poll follows a failure (R153). -/
def State.xferProgram (s : State) : State :=
  let t := s.program (bufRead s.hb s.regs.bufOff s.regs.segLen) s.regs.pa s.regs.segLen
  if s.nextStatus = 0 then t.startPoll else t.raise .deviceError s.nextStatus

/-- R160, step 2: the erase primitive; on success the poll starts, and no poll follows a failure. -/
def State.xferErase (s : State) : State :=
  let t := s.eraseBlock s.regs.pa s.regs.segLen
  if s.nextStatus = 0 then t.startPoll else t.raise .deviceError s.nextStatus

/-- R23, code 5. -/
def State.visitXfer (s : State) : State :=
  if s.regs.op = 2 then s.xferRead else if s.regs.op = 3 then s.xferProgram else s.xferErase

/-- R23, code 6; R131, R132: one sample of WAIT_READY. The error field is tested first, then the busy bit; the counter
is decremented after a busy sample only. After an error the device is as busy as the sample said (R203), and the
segment's bytes are any value (U7). -/
def State.visitPoll (s : State) : State :=
  let t := s.statusGet
  if s.nextStatus ≠ 0 then
    (t.spoil s.sampleBusy s.drawn (t.deviceAddress s.regs.pa) s.regs.segLen).raise .deviceError s.nextStatus
  else if s.sampleBusy = false then t.goto .adv
  else
    let u := { t with regs := { t.regs with pollCnt := t.regs.pollCnt - 1 } }
    if u.regs.pollCnt = 0 then (u.late s.drawn).raise .timeout 0 else u

/-- R23, code 7: step 4 (READ, ERASE) or 5 (PROGRAM). ERASE does not use `buf_off`. -/
def State.visitAdv (s : State) : State :=
  let n := advanceStep s.cfg s.regs.op s.regs.cursor s.regs.segLen
  { s with
    regs := { s.regs with
      cursor := s.regs.cursor + n
      bufOff := if s.regs.op = 4 then s.regs.bufOff else s.regs.bufOff + n
      remaining := s.regs.remaining - (n : Int) }
    fsm := if s.regs.remaining - (n : Int) > 0 then .xlate else .resp }

/-! ### OPEN and CLOSE -/

/-- R23, code 8; R172, H1. -/
def State.visitHsOpen (s : State) : State :=
  let t := s.peripheralOpen
  if s.nextStatus = 0 then t.goto .hsWren else t.raise .deviceError s.nextStatus

/-- R23, code 9; R172, H2. -/
def State.visitHsWren (s : State) : State :=
  let t := s.directWrite [s.cfg.cmdWren] false
  if s.nextStatus = 0 then t.goto .hsWrsr else t.raise .deviceError s.nextStatus

/-- R23, code 10; R172, H3. -/
def State.visitHsWrsr (s : State) : State :=
  let t := s.directWrite (s.cfg.cmdWrsr :: s.cfg.srExpected) false
  if s.nextStatus = 0 then t.goto .hsRdbk else t.raise .deviceError s.nextStatus

/-- R23, code 11; R172, H4, first call. The second is a sequencer step of its own (log entry 26). -/
def State.visitHsRdbk (s : State) : State :=
  let t := s.directWrite [s.cfg.cmdRdsr] true
  if s.nextStatus = 0 then t.goto .hsRead else t.raise .deviceError s.nextStatus

/-- R23, code 11; R172, H4, second call: the read-back, compared with `SR_EXPECTED`. A mismatch is reported as
`DeviceError(OPEN_MISMATCH_CODE)` (R171). -/
def State.visitHsRead (s : State) : State :=
  let t := s.directRead s.cfg.srExpected.length
  if s.nextStatus ≠ 0 then t.raise .deviceError s.nextStatus
  else if s.directReadBytes s.cfg.srExpected.length = s.cfg.srExpected then
    { t with opened := true, condition := .configured, fsm := .resp }
  else t.raise .deviceError s.cfg.openMismatchCode

/-- R23, code 12; R174: `opened <- 0`, then `peripheral_close`. -/
def State.visitClose (s : State) : State :=
  let t := { s with opened := false }.peripheralClose
  if s.nextStatus = 0 then t.goto .resp else t.raise .deviceError s.nextStatus

/-! ### One sequencer step, and a command as a whole -/

/-- R23: one visit of the sequencer's state. In `S_IDLE` the block waits. -/
def State.visit (s : State) : State :=
  match s.fsm with
  | .idle => s
  | .check => s.visitCheck
  | .xlate => s.visitXlate
  | .bank => s.visitBank
  | .seg => s.visitSeg
  | .xfer => s.visitXfer
  | .poll => s.visitPoll
  | .adv => s.visitAdv
  | .hsOpen => s.visitHsOpen
  | .hsWren => s.visitHsWren
  | .hsWrsr => s.visitHsWrsr
  | .hsRdbk => s.visitHsRdbk
  | .hsRead => s.visitHsRead
  | .close => s.visitClose
  | .resp => s.respond

/-- One sequencer step that does what `visit` says: the reset if it is due (R243), else the visit, the next reset
drawing nearer. Log entry 5. -/
def State.tickBy (visit : State → State) (s : State) : State :=
  match s.resets with
  | [] => visit s
  | 0 :: _ => s.takeReset
  | (k + 1) :: later => visit { s with resets := k :: later }

/-- One sequencer step of a command. -/
def State.tick (s : State) : State := s.tickBy State.visit

/-- Sequencer steps until the block is idle, at most `n`. -/
def State.run : Nat → State → State
  | 0, s => s
  | n + 1, s => if s.fsm = .idle then s else State.run n s.tick

/-- A bound on the sequencer steps of one command of length `len` (R71, R133). -/
def tickBound (c : Config) (len : Nat) : Nat := (len + 2) * (c.pollLimit + 8) + 16

/-- R80, R23: a command is accepted with its operands `r` loaded; its response is pending and its trace is empty. -/
def State.accept (r : Regs) (s : State) : State := { s with regs := r, fsm := .check, hr := none, trace := [] }

/-- A command whose operands are loaded in `r`, from its acceptance to its response. -/
def State.command (r : Regs) (s : State) : Host.Outcome State Fault Refusal :=
  if s.fsm = .idle then .next ((s.accept r).run (tickBound s.cfg r.len)) else .refused .commandWhileRunning

/-- R83, format Q: only the opcode is loaded (R185). -/
def State.commandQ (op : Opcode) (s : State) : Host.Outcome State Fault Refusal := s.command { s.regs with op := op }

/-- R83, format E: the opcode and the two operands are loaded. -/
def State.commandE (op : Opcode) (addr len : Nat) (s : State) : Host.Outcome State Fault Refusal :=
  s.command { s.regs with op := op, addr := addr, len := len }

/-- R51, U14: a READ or PROGRAM that passes validation needs a buffer of `len` bytes. -/
def State.bufferTooShort (bv : Bool) (addr len : Nat) (s : State) : Bool :=
  bv && decide (validateRange s.cfg addr len = .ok) && decide (s.hb.length < len)

/-- R83, format T: the opcode, the buffer reference and the two operands are loaded. -/
def State.commandT (op : Opcode) (bv : Bool) (addr len : Nat) (s : State) : Host.Outcome State Fault Refusal :=
  if s.bufferTooShort bv addr len then .refused .bufferTooShort
  else s.command { s.regs with op := op, bufValid := bv, addr := addr, len := len }

/-- R87, R211: what `S_CHECK` does with a reserved encoding, whichever field makes it one: the latch is cleared, and
InvalidArgument is raised. -/
def State.rejectEncoding (s : State) : State := { s with regs := s.regs.clearLatch }.raise .invalidArgument 0

/-- R87, R211: a reserved encoding is accepted, rejected in its visit of `S_CHECK`, answered, and the block is idle
again; no primitive is called. Its sequencer steps are those of any command, and a reset may fall between them (R243). -/
def State.commandReserved (op : Opcode) (s : State) : Host.Outcome State Fault Refusal :=
  if s.fsm = .idle then
    .next (((s.accept { s.regs with op := op }).tickBy State.rejectEncoding).run (tickBound s.cfg 0))
  else .refused .commandWhileRunning

end Sys2Proof.Machine
end

