-- ==== Sys2Proof/Machine/Erase.lean ====
section
/-! DEFINITION. ERASE (R160; R167 in `overlap` mode): validation, then per block `bank_select`, the erase primitive and a
status poll. -/

namespace Sys2Proof.Machine

/-- R160: ERASE. It has no buffer, so it never answers InvalidArgument. -/
def execErase (addr len : Nat) (s : State) : Host.Outcome State Fault Refusal := s.commandE 4 addr len

end Sys2Proof.Machine
end

