-- ==== Sys2Proof/Machine/Lifecycle.lean ====
section
/-! DEFINITION. OPEN and CLOSE (R170, R174) and their aliases INIT and DEINIT (R176). What they do is in the sequencer:
`visitCheck`, the handshake states and `visitClose`. -/

namespace Sys2Proof.Machine

/-- R170: OPEN. -/
def execOpen (s : State) : Host.Outcome State Fault Refusal := s.commandQ 0

/-- R174: CLOSE. -/
def execClose (s : State) : Host.Outcome State Fault Refusal := s.commandQ 1

/-- R176: INIT is OPEN. -/
def execInit (s : State) : Host.Outcome State Fault Refusal := s.commandQ 0

/-- R176: DEINIT is CLOSE. -/
def execDeinit (s : State) : Host.Outcome State Fault Refusal := s.commandQ 1

end Sys2Proof.Machine
end

