-- ==== Sys2Proof/Machine/Program.lean ====
section
/-! DEFINITION. PROGRAM (R150) and its alias WRITE (R93): validation, then per program page `bank_select`, the program
primitive and a status poll. -/

namespace Sys2Proof.Machine

/-- R150: PROGRAM. -/
def execProgram (bv : Bool) (addr len : Nat) (s : State) : Host.Outcome State Fault Refusal := s.commandT 3 bv addr len

/-- R93: WRITE is PROGRAM. -/
def execWrite (bv : Bool) (addr len : Nat) (s : State) : Host.Outcome State Fault Refusal := s.commandT 3 bv addr len

end Sys2Proof.Machine
end

