-- ==== Sys2Proof/Machine/Queries.lean ====
section
/-! DEFINITION. The five geometry queries (R180 to R185): no primitive, the answer is a value of the configuration. -/

namespace Sys2Proof.Machine

/-- R180: SIZE. -/
def execSize (s : State) : Host.Outcome State Fault Refusal := s.commandQ 5

/-- R181: GET_READ_SIZE. -/
def execGetReadSize (s : State) : Host.Outcome State Fault Refusal := s.commandQ 6

/-- R182: GET_PROGRAM_SIZE. -/
def execGetProgramSize (s : State) : Host.Outcome State Fault Refusal := s.commandQ 7

/-- R183: GET_ERASE_SIZE. -/
def execGetEraseSize (s : State) : Host.Outcome State Fault Refusal := s.commandQ 8

/-- R184: GET_TYPE. -/
def execGetType (s : State) : Host.Outcome State Fault Refusal := s.commandQ 9

end Sys2Proof.Machine
end

