-- ==== Sys2Proof/Machine/Read.lean ====
section
/-! DEFINITION. READ (R140): validation, then per bank `bank_select` and a copy from the window. -/

namespace Sys2Proof.Machine

/-- R140: READ. -/
def execRead (bv : Bool) (addr len : Nat) (s : State) : Host.Outcome State Fault Refusal := s.commandT 2 bv addr len

end Sys2Proof.Machine
end

