-- ==== Sys2Proof/Machine/Dispatch.lean ====
section
/-! DEFINITION. One arm per constructor of Instr, in the order of the opcode table. -/

namespace Sys2Proof.Machine

def exec (i : Instr) (s : State) : Host.Outcome State Fault Refusal :=
  match i with
  | .openCmd => Sys2Proof.Machine.execOpen s
  | .closeCmd => Sys2Proof.Machine.execClose s
  | .read bv addr len => Sys2Proof.Machine.execRead bv addr len s
  | .program bv addr len => Sys2Proof.Machine.execProgram bv addr len s
  | .erase addr len => Sys2Proof.Machine.execErase addr len s
  | .size => Sys2Proof.Machine.execSize s
  | .getReadSize => Sys2Proof.Machine.execGetReadSize s
  | .getProgramSize => Sys2Proof.Machine.execGetProgramSize s
  | .getEraseSize => Sys2Proof.Machine.execGetEraseSize s
  | .getType => Sys2Proof.Machine.execGetType s
  | .initCmd => Sys2Proof.Machine.execInit s
  | .deinitCmd => Sys2Proof.Machine.execDeinit s
  | .write bv addr len => Sys2Proof.Machine.execWrite bv addr len s

end Sys2Proof.Machine
end

