-- ==== Sys2Proof/Machine/Port.lean ====
section
/-! DEFINITION. Port HC (R80, R81): how the next command reaches the block and is run once decoded, and what one step
of the machine does. -/

namespace Sys2Proof.Machine

/-- One sequencer step has passed, and the next reset is one step nearer. -/
def nearer : List Nat → List Nat
  | (k + 1) :: later => k :: later
  | resets => resets

/-- R80: the host issues the request `r`, with the buffer it attaches to port HB (R51); `rest` is left to issue. The
move from `S_IDLE` to `S_CHECK` is a sequencer step (R23, code 0), so the next reset draws nearer (log entry 5). -/
def State.issue (r : Request) (rest : List Request) (s : State) : State :=
  { s with hc := rest, hb := r.buf.getD s.hb, resets := nearer s.resets }

/-- R87: every descriptor is one of the commands or a reserved encoding, which is answered InvalidArgument. -/
def runDescriptor (d : Descriptor) (s : State) : Host.Outcome State Fault Refusal :=
  match decode d with
  | .ok i => exec i s
  | .error _ => s.commandReserved (cmdOp d.cmd)

/-- R80: in `S_IDLE` the block takes the next descriptor the host offers, if there is one, and runs it. -/
def State.takeRequest (s : State) : Host.Outcome State Fault Refusal :=
  match s.hc with
  | [] => .next s.tick
  | r :: rest =>
    if r.desc.fits s.cfg then runDescriptor r.desc (s.issue r rest) else .fault .descriptorTooWide

/-- One step. In `S_IDLE` a step takes the next descriptor from port HC and runs its command to the response (or to a
reset, R243); with no descriptor it waits. A state inside a command goes on by one sequencer step, and a reset that is
due is taken. A configuration that breaks R9 or R10 is refused (R10, U13). -/
def State.stepOnce (s : State) : Host.Outcome State Fault Refusal :=
  if s.cfg.wf = false then .refused .badConfiguration
  else if s.fsm ≠ .idle ∨ s.resets.head? = some 0 then .next s.tick
  else s.takeRequest

/-- The request that carries the descriptor of the table word `w` is the next one the idle block takes. -/
def State.offerWord (s : State) (nbits w : Nat) : State :=
  { s with
    fsm := .idle
    resets := []
    hc := { desc := Descriptor.ofTableBits s.cfg.aw nbits w, buf := none } :: s.hc }

end Sys2Proof.Machine
end

