-- ==== Sys2Proof/Machine/Step.lean ====
section
/-! DEFINITION. One step of the machine, and an instruction word placed where the step takes its next instruction. -/

namespace Sys2Proof.Machine

/-- One step (`State.stepOnce`, Machine/Port.lean). -/
def step (s : State) : Host.Outcome State Fault Refusal := s.stepOnce

/-- `s` with the instruction word `w` offered on port HC, so that the very next step accepts and runs it: the block
idle, no reset due, the word's descriptor at the head of the host's requests. Log entry 9. -/
def State.withFetchWord (s : State) (nbits w : Nat) : State := s.offerWord nbits w

end Sys2Proof.Machine
end

