-- ==== Sys2Proof/Safety.lean ====
section
/-! DEFINITION. The terms the statements are made in: the host's duties (R258), assumptions on the oracle's answers, the
legality of a trace entry (R196 to R199), the order of a command's calls (R200), the kinds it may answer (R91), and the
invariants of the machine. -/

namespace Sys2Proof

open Sys2Proof.Machine

/-! ### Commands -/

/-- R25: the working registers once the command's operands are loaded on its acceptance; the fields that the command's
format ignores (R83) keep what they held (log entry 11). -/
def Instr.load (i : Instr) (r : Regs) : Regs :=
  match i with
  | .read bv a n | .program bv a n | .write bv a n => { r with op := i.opcode, bufValid := bv, addr := a, len := n }
  | .erase a n => { r with op := i.opcode, addr := a, len := n }
  | .openCmd | .closeCmd | .size | .getReadSize | .getProgramSize | .getEraseSize | .getType | .initCmd | .deinitCmd =>
    { r with op := i.opcode }

/-- R91: the kinds a command may answer. -/
def Instr.kinds : Instr → List Kind
  | .read _ _ _ => [.ok, .invalidArgument, .invalidAddress, .deviceError]
  | .program _ _ _ | .write _ _ _ => [.ok, .invalidArgument, .invalidAddress, .deviceError, .timeout]
  | .erase _ _ => [.ok, .invalidAddress, .deviceError, .timeout]
  | .openCmd | .closeCmd | .initCmd | .deinitCmd => [.ok, .deviceError]
  | .size | .getReadSize | .getProgramSize | .getEraseSize | .getType => [.ok]

/-- R200: the order in which a command calls its primitives, as a position that each call moves on. In a transfer the
position is 0 before an iteration, 1 after `bank_select`, 2 after `program` or `erase_block` and one more after each
status sample (a READ's iteration ends with the window read, position 0 again); in OPEN and CLOSE it counts the calls.
`none`: the command does not make this call here. -/
def Instr.callOrder (pollLimit : Nat) (i : Instr) (k : Nat) (p : Prim) : Option Nat :=
  match i with
  | .read _ _ _ =>
    match p with
    | .bankSelect _ _ => if k = 0 then some 1 else none
    | .memRead _ _ _ => if k = 1 then some 0 else none
    | _ => none
  | .program _ _ _ | .write _ _ _ =>
    match p with
    | .bankSelect _ _ => if k = 0 ∨ 3 ≤ k then some 1 else none
    | .program _ _ _ _ => if k = 1 then some 2 else none
    | .statusGet _ _ => if 2 ≤ k ∧ k < 2 + pollLimit then some (k + 1) else none
    | _ => none
  | .erase _ _ =>
    match p with
    | .bankSelect _ _ => if k = 0 ∨ 3 ≤ k then some 1 else none
    | .eraseBlock _ _ _ => if k = 1 then some 2 else none
    | .statusGet _ _ => if 2 ≤ k ∧ k < 2 + pollLimit then some (k + 1) else none
    | _ => none
  | .openCmd | .initCmd =>
    match p with
    | .peripheralOpen _ _ => if k = 0 then some 1 else none
    | .directWrite _ _ _ _ => if 1 ≤ k ∧ k < 4 then some (k + 1) else none
    | .directRead _ _ _ => if k = 4 then some 5 else none
    | _ => none
  | .closeCmd | .deinitCmd =>
    match p with
    | .peripheralClose _ => if k = 0 then some 1 else none
    | _ => none
  | .size | .getReadSize | .getProgramSize | .getEraseSize | .getType => none

/-- The position a trace brings a command to; `none` if the trace is no beginning of the command's order of calls. -/
def Instr.position (pollLimit : Nat) (i : Instr) (tr : List Prim) : Option Nat :=
  tr.foldlM (i.callOrder pollLimit) 0

end Sys2Proof

namespace Sys2Proof.Machine

/-! ### The block, its host and its peripheral -/

/-- R80: the block is idle, and no reset is scheduled. -/
abbrev State.quiet (s : State) : Prop := s.fsm = .idle ∧ s.resets = []

/-- R258: what the host must have seen to before this command: for a transfer, OPEN Ok with no CLOSE since and a device
that is idle (R252, R253), and for READ and PROGRAM a buffer of the command's length (R51). A run that keeps the duties
is a safe run; outside them the model runs on, the peripheral's effects open (log entry 7), but for a short buffer. -/
def State.dutiesKept (i : Instr) (s : State) : Bool :=
  match i with
  | .read bv a n | .program bv a n | .write bv a n => s.ready && !s.bufferTooShort bv a n
  | .erase _ _ => s.ready
  | _ => true

/-- R51, U14: the host's buffer is long enough for the command. -/
def State.bufferFits (i : Instr) (s : State) : Bool :=
  match i with
  | .read bv a n | .program bv a n | .write bv a n => !s.bufferTooShort bv a n
  | _ => true

/-- R71: no more primitive calls than this in a transfer of `length` bytes. -/
def callBound (c : Config) (length : Nat) : Nat := length * (c.pollLimit + 2)

/-- R202: each of the next `n` primitive calls returns SUCCESS. An assumption on the oracle, for statements of an Ok. -/
abbrev State.allSucceed (n : Nat) (s : State) : Prop := ∀ k, k < n → (s.answer k).status % 2 ^ s.cfg.perrW = 0

/-- R63: from each of the next `n` primitive calls on, the device finishes within `POLL_LIMIT` calls. An assumption on
the oracle. -/
abbrev State.healthy (n : Nat) (s : State) : Prop :=
  ∀ k, k < n → ∃ j, j < s.cfg.pollLimit ∧ (s.answer (k + j)).settled = true

/-- `n` sequencer steps. -/
def State.ticks : Nat → State → State
  | 0, s => s
  | n + 1, s => State.ticks n s.tick

/-- What an outcome is but for the working registers and the configuration of its next state. -/
def observe : Host.Outcome State Fault Refusal → Host.Outcome State Fault Refusal
  | .next s => .next { s with regs := Regs.reset, cfg := Config.hardware }
  | .fault f => .fault f
  | .refused r => .refused r

/-! ### Responses and traces -/

/-- R89, R216: the response that carries an error, or Ok with no value. -/
def Response.status (k : Kind) (info : Nat) : Response := ⟨k, info, 0, []⟩

/-- R190: the status code a primitive call returned; 0 for the window read, which has none (R199). -/
def Prim.code : Prim → Nat
  | .peripheralOpen _ st | .directWrite _ _ _ st | .directRead _ st _ | .bankSelect _ st | .program _ _ _ st => st
  | .eraseBlock _ _ st | .peripheralClose st | .statusGet st _ => st
  | .memRead _ _ _ => 0

/-- R195 to R199: the arguments the block guarantees: a bank that exists, and a physical range that lies in the window
and in one program page or is one erase block. -/
def Prim.legal (c : Config) : Prim → Prop
  | .bankSelect b _ => b < nBanks c
  | .memRead pa n bytes => 1 ≤ n ∧ bytes.length = n ∧ c.baseAddress ≤ pa ∧ pa + n ≤ c.baseAddress + c.window
  | .program src pa n _ =>
    1 ≤ n ∧ src.length = n ∧ c.baseAddress ≤ pa ∧ pa + n ≤ c.baseAddress + c.window ∧
      (pa - c.baseAddress) % c.progGran + n ≤ c.progGran
  | .eraseBlock pa n _ =>
    n = c.eraseGran ∧ c.baseAddress ≤ pa ∧ pa + n ≤ c.baseAddress + c.window ∧ (pa - c.baseAddress) % c.eraseGran = 0
  | .directWrite bytes n _ _ => n = bytes.length
  | .directRead n _ bytes => bytes.length = n
  | .peripheralOpen config _ => config = c.periphConfig
  | .peripheralClose _ | .statusGet _ _ => True

/-- How many entries of a trace are calls of `bank_select`. -/
def countBankSelects (tr : List Prim) : Nat := tr.countP fun p => match p with | .bankSelect _ _ => true | _ => false

/-- How many entries of a trace are window reads. -/
def countMemReads (tr : List Prim) : Nat := tr.countP fun p => match p with | .memRead _ _ _ => true | _ => false

/-- How many entries of a trace are calls of `program` or `erase_block`. -/
def countMutations (tr : List Prim) : Nat :=
  tr.countP fun p => match p with | .program _ _ _ _ => true | .eraseBlock _ _ _ => true | _ => false

/-- How many entries of a trace are status samples. -/
def countSamples (tr : List Prim) : Nat := tr.countP fun p => match p with | .statusGet _ _ => true | _ => false

/-- How many segments of a PROGRAM or an ERASE are complete by its trace: a sample without an error found the device
not busy (R65, R131). -/
def countCompleted (tr : List Prim) : Nat := tr.countP fun p => p = .statusGet 0 false

/-- The calls of `program` in a trace, in order: the bytes, the physical address and the length of each. -/
def programCalls (tr : List Prim) : List (List Byte × Nat × Nat) :=
  tr.filterMap fun p => match p with | .program src pa n _ => some (src, pa, n) | _ => none

/-! ### The parts of a request -/

/-- R151: the first byte of the request in the `j`-th page that it touches. -/
def pageStart (c : Config) (address j : Nat) : Nat := max address ((address / c.progGran + j) * c.progGran)

/-- R151: the end of the request in the `j`-th page that it touches. -/
def pageEnd (c : Config) (address length j : Nat) : Nat :=
  min (address + length) ((address / c.progGran + j + 1) * c.progGran)

/-- R160, R162, R167: the end of the blocks that the request's accounting covers, the first being that of `address`. -/
def eraseEnd (c : Config) (address length : Nat) : Nat :=
  match c.eraseMode with
  | .perGranule => alignDownBlock c address + ceilDiv length c.eraseGran * c.eraseGran
  | .overlap =>
    if length = 0 then alignDownBlock c address else alignDownBlock c (address + length - 1) + c.eraseGran

/-! ### Invariants -/

/-- R25: every working register holds a value of its width. `value` is left out: R9 and R10 allow a granularity of
`2^AW` or more on a device of less than one window, and a query answers it whole (log entry 10). -/
def Regs.fits (c : Config) (r : Regs) : Prop :=
  r.addr < 2 ^ c.aw ∧ r.len < 2 ^ c.aw ∧ r.cursor < 2 ^ c.aw ∧ r.bufOff < 2 ^ c.aw ∧ r.segLen < 2 ^ c.aw ∧
    -(2 ^ c.aw : Int) ≤ r.remaining ∧ r.remaining < (2 ^ c.aw : Int) ∧ r.bank < 2 ^ bankW c ∧ r.pa < 2 ^ c.paW ∧
    r.pollCnt < 2 ^ pollW c ∧ r.stInfo < 2 ^ c.perrW

/-- The states of the segment loop (R23, codes 2 to 7). -/
def Fsm.inLoop : Fsm → Bool
  | .xlate | .bank | .seg | .xfer | .poll | .adv => true
  | _ => false

/-- R23: the next-state column of the sequencer's table. From its first call to its second the sequencer stays in
`S_HS_RDBK` (log entry 26). -/
def Fsm.successors : Fsm → List Fsm
  | .idle => [.check]
  | .check => [.resp, .xlate, .hsOpen, .close]
  | .xlate => [.bank]
  | .bank => [.seg, .resp]
  | .seg => [.xfer]
  | .xfer => [.adv, .poll, .resp]
  | .poll => [.adv, .poll, .resp]
  | .adv => [.xlate, .resp]
  | .hsOpen => [.hsWren, .resp]
  | .hsWren => [.hsWrsr, .resp]
  | .hsWrsr => [.hsRdbk, .resp]
  | .hsRdbk => [.hsRead, .resp]
  | .hsRead => [.resp]
  | .close => [.resp]
  | .resp => [.idle]

/-- The states in which `bank` and `pa` are those of the current segment. -/
def Fsm.hasBank : Fsm → Bool
  | .bank | .seg | .xfer | .poll | .adv => true
  | _ => false

/-- The states in which `seg_len` is that of the current segment. -/
def Fsm.hasLength : Fsm → Bool
  | .xfer | .poll | .adv => true
  | _ => false

/-- R24, R27, R161: what the working registers hold inside the segment loop. -/
structure State.loopOk (s : State) : Prop where
  op      : s.fsm.inLoop = true → s.regs.op = 2 ∨ s.regs.op = 3 ∨ s.regs.op = 4
  left    : s.fsm.inLoop = true → 0 < s.regs.remaining
  range   : s.fsm.inLoop = true → (s.regs.cursor : Int) + s.regs.remaining ≤ s.cfg.totalSize
  buffer  : s.fsm.inLoop = true → s.regs.op ≠ 4 → (s.regs.bufOff : Int) + s.regs.remaining = s.regs.len
  aligned : s.fsm.inLoop = true → s.regs.op = 4 → s.cfg.eraseMode = .perGranule → s.regs.cursor % s.cfg.eraseGran = 0
  bank    : s.fsm.hasBank = true → s.regs.bank = translateBank s.cfg (segmentStart s.cfg s.regs.op s.regs.cursor)
  pa      : s.fsm.hasBank = true → s.regs.pa = translatePa s.cfg (segmentStart s.cfg s.regs.op s.regs.cursor)
  length  : s.fsm.hasLength = true →
    s.regs.segLen = segmentLength s.cfg s.regs.op s.regs.cursor s.regs.remaining
  poll    : s.fsm = .poll → s.regs.op ≠ 2 ∧ 0 < s.regs.pollCnt ∧ s.regs.pollCnt ≤ s.cfg.pollLimit

/-- The invariant every step keeps: a legal configuration, a canonical flash array inside the device, `opened` only of
a configured peripheral and never inside the handshake, registers within their widths, the segment loop in order. -/
structure State.Inv (s : State) : Prop where
  config    : s.cfg.wf = true
  canonical : s.flash.wf
  inside    : s.flash.below s.cfg.totalSize
  lifecycle : s.opened = true → s.condition = .configured
  handshake : s.fsm = .hsOpen ∨ s.fsm = .hsWren ∨ s.fsm = .hsWrsr ∨ s.fsm = .hsRdbk ∨ s.fsm = .hsRead →
    s.opened = false
  bank      : s.activeBank < 2 ^ bankW s.cfg
  registers : s.regs.fits s.cfg
  loop      : s.loopOk

end Sys2Proof.Machine
end

