-- ==== Sys2Proof/Certificates/Slice0/Obligations.lean ====
section
/-! DEFINITION. The statements about the machine. Each docstring names the rule of spec/ it formalises; where a clause
rests on a choice of the model it says so and names the log entry. Every statement holds for every configuration a
clause does not restrict, and for every answer of the oracle (State's `script`, and past its end a free value). -/

open Sys2Proof Sys2Proof.Machine

/-! ### Encoding -/

/-- R81 to R85, R93: a command packed into the word `CMD ++ ADDR ++ LEN` of any legal configuration and decoded again is
the command, an alias being its command: no bit of an operand is dropped. -/
def Obligations.PackedEncodingRoundTrips : Prop :=
  ∀ (c : Config) (i : Instr), c.wf = true → i.wf c = true →
    decode (Descriptor.unpack c.aw (Descriptor.pack c.aw (encode i))) = .ok i.canonical

/-- R83, R84: what decodes re-encodes to the same significant fields: `CMD` under the mask `0xEF`, all of the descriptor
in format T, `ADDR` and `LEN` in format E; and the decoder yields no alias. -/
def Obligations.DecodedDescriptorReencodes : Prop :=
  ∀ (d : Descriptor) (i : Instr), decode d = .ok i →
    i.canonical = i ∧ (encode i).cmd &&& 0xEF#8 = d.cmd &&& 0xEF#8 ∧
      (i.opcode = 2 ∨ i.opcode = 3 → encode i = d) ∧
      (i.opcode = 4 → (encode i).addr = d.addr ∧ (encode i).len = d.len)

/-- R87: the reserved encodings are exactly `CMD[7:5] != 0` and `CMD[3:0]` in `0xA .. 0xF`, and 20 of the 256 values of
`CMD` decode to a command. -/
def Obligations.ReservedEncodingsAreExactly : Prop :=
  (∀ d : Descriptor, (∃ e, decode d = .error e) ↔ d.cmd.toNat / 32 ≠ 0 ∨ 10 ≤ d.cmd.toNat % 16) ∧
    (List.range 256).countP (fun c => (decode ⟨BitVec.ofNat 8 c, 0, 0⟩).toBool) = 20

/-- R84, R86: words written out from the encoding column of the opcode map, one for each command. -/
def Obligations.WordsOfTheOpcodeMapDecode : Prop :=
  decode ⟨0b00000000#8, 7, 9⟩ = .ok .openCmd ∧ decode ⟨0b00010001#8, 7, 9⟩ = .ok .closeCmd ∧
    decode ⟨0b00010010#8, 7, 9⟩ = .ok (.read true 7 9) ∧ decode ⟨0b00000010#8, 7, 9⟩ = .ok (.read false 7 9) ∧
    decode ⟨0b00010011#8, 7, 9⟩ = .ok (.program true 7 9) ∧ decode ⟨0b00010100#8, 7, 9⟩ = .ok (.erase 7 9) ∧
    decode ⟨0b00000101#8, 7, 9⟩ = .ok .size ∧ decode ⟨0b00000110#8, 7, 9⟩ = .ok .getReadSize ∧
    decode ⟨0b00000111#8, 7, 9⟩ = .ok .getProgramSize ∧ decode ⟨0b00001000#8, 7, 9⟩ = .ok .getEraseSize ∧
    decode ⟨0b00001001#8, 7, 9⟩ = .ok .getType

/-! ### AddressValidator and BankTranslator -/

/-- R111: the range check over the unbounded integers, no wrap and no exception for a length of zero. -/
def Obligations.RangeCheckIsOverTheIntegers : Prop :=
  ∀ (c : Config) (address length : Nat),
    validateRange c address length =
      if (address : Int) + (length : Int) - 1 ≥ (c.totalSize : Int) then .invalidAddress else .ok

/-- R116, R117: the remaining quantities and their ranges. -/
def Obligations.RemainingQuantitiesStayInRange : Prop :=
  ∀ (c : Config) (la : Nat), c.wf = true →
    (remainWindow c la + la % c.window = c.window ∧ 1 ≤ remainWindow c la ∧ remainWindow c la ≤ c.window ∧
      (remainWindow c la = c.window ↔ la % c.window = 0) ∧
      (remainWindow c la = 1 ↔ (la + 1) % c.window = 0)) ∧
    (remainPage c la + la % c.progGran = c.progGran ∧ 1 ≤ remainPage c la ∧ remainPage c la ≤ c.progGran)

/-- R122: ALIGN_DOWN_BLOCK, both forms, the first byte of the erase block that holds `la`. -/
def Obligations.AlignDownGivesTheBlockOfAnAddress : Prop :=
  ∀ (c : Config) (la : Nat), c.wf = true →
    alignDownBlock c la = la / c.eraseGran * c.eraseGran ∧ alignDownBlock c la = la - la % c.eraseGran ∧
      c.eraseGran ∣ alignDownBlock c la ∧ alignDownBlock c la ≤ la ∧ la < alignDownBlock c la + c.eraseGran

/-- R114, R124: the translation, its ranges, its inverse, and when two logical addresses share a physical address. -/
def Obligations.TranslationIsInvertible : Prop :=
  ∀ (c : Config) (la lb : Nat), c.wf = true → la < c.totalSize → lb < c.totalSize →
    translateBank c la < nBanks c ∧ c.baseAddress ≤ translatePa c la ∧
      translatePa c la < c.baseAddress + c.window ∧
      la = translateBank c la * c.window + (translatePa c la - c.baseAddress) ∧
      (translatePa c la = translatePa c lb ↔ (c.window : Int) ∣ (la : Int) - (lb : Int))

/-- R119, R120: a page and an erase block end no later than their bank, so the page bound of PROGRAM is the double bound
of R119 and an aligned erase block lies in one bank. -/
def Obligations.GranulesNeverSpanTwoBanks : Prop :=
  ∀ (c : Config) (la : Nat), c.wf = true →
    remainPage c la ≤ remainWindow c la ∧ remainBlock c la ≤ remainWindow c la ∧
      min (remainWindow c la) (remainPage c la) = remainPage c la ∧
      translateBank c (alignDownBlock c la) = translateBank c (alignDownBlock c la + c.eraseGran - 1)

/-- R121: a segment cut at a boundary ends on it; at a bank boundary the bank index goes up by one and the physical
offset returns to 0. -/
def Obligations.CutSegmentsEndOnTheBoundary : Prop :=
  ∀ (c : Config) (la : Nat), c.wf = true →
    (la + remainWindow c la) % c.window = 0 ∧ (la + remainPage c la) % c.progGran = 0 ∧
      (la + remainBlock c la) % c.eraseGran = 0 ∧
      translateBank c (la + remainWindow c la) = translateBank c la + 1 ∧
      translatePa c (la + remainWindow c la) = c.baseAddress

/-! ### StatusPoller -/

/-- R131, R132: one sample. The error field first, then the busy bit, the counter only after a busy sample; the sample
is one `status_get` in the trace. -/
def Obligations.PollSampleTestsErrorThenBusyThenCounter : Prop :=
  ∀ s : State, s.fsm = .poll → s.resets = [] →
    s.tick.trace = s.trace ++ [.statusGet s.nextStatus s.sampleBusy] ∧ s.tick.draws = s.draws + 1 ∧
    (s.nextStatus ≠ 0 →
      s.tick.fsm = .resp ∧ s.tick.regs = { s.regs with stKind := .deviceError, stInfo := s.nextStatus }) ∧
    (s.nextStatus = 0 → s.sampleBusy = false → s.tick.fsm = .adv ∧ s.tick.regs = s.regs) ∧
    (s.nextStatus = 0 → s.sampleBusy = true → s.regs.pollCnt = 1 →
      s.tick.fsm = .resp ∧ s.tick.regs = { s.regs with pollCnt := 0, stKind := .timeout, stInfo := 0 }) ∧
    (s.nextStatus = 0 → s.sampleBusy = true → 1 < s.regs.pollCnt →
      s.tick.fsm = .poll ∧ s.tick.regs = { s.regs with pollCnt := s.regs.pollCnt - 1 })

/-- R133: a poll whose counter is `n` answers Timeout after exactly `n` busy samples, and Ok at the first sample that is
not busy, the counter having lost one for each busy sample before it. -/
def Obligations.PollCountsItsSamples : Prop :=
  ∀ (s : State) (n : Nat), s.fsm = .poll → s.resets = [] → s.inFlight.isSome = true → s.regs.pollCnt = n → 0 < n →
    ((∀ k, k < n → (s.answer k).status % 2 ^ s.cfg.perrW = 0 ∧ (s.answer k).settled = false) →
      (s.ticks n).fsm = .resp ∧ (s.ticks n).regs.stKind = .timeout ∧ (s.ticks n).regs.stInfo = 0 ∧
        (s.ticks n).regs.pollCnt = 0 ∧ (s.ticks n).trace = s.trace ++ List.replicate n (.statusGet 0 true)) ∧
    (∀ i, i < n → (∀ k, k < i → (s.answer k).status % 2 ^ s.cfg.perrW = 0 ∧ (s.answer k).settled = false) →
      (s.answer i).status % 2 ^ s.cfg.perrW = 0 → (s.answer i).settled = true →
      (s.ticks (i + 1)).fsm = .adv ∧ (s.ticks (i + 1)).regs.pollCnt = n - i ∧ (s.ticks (i + 1)).inFlight = none ∧
        (s.ticks (i + 1)).trace = s.trace ++ List.replicate i (.statusGet 0 true) ++ [.statusGet 0 false])

/-- R203: a device with nothing in flight reports not busy, and stays so, whatever the oracle answers. -/
def Obligations.IdleDeviceStaysIdleUnderSamples : Prop :=
  ∀ s : State, s.busy = false → s.sampleBusy = false ∧ s.statusGet.busy = false ∧ s.statusGet.flash = s.flash

/-! ### OPEN and CLOSE -/

/-- R170, R171, R172, R176: OPEN and INIT on a closed block whose five calls succeed and whose read-back matches: the
handshake in its order, then `opened` and Ok. That an idle device keeps its flash array and stays idle is the model's
reading (log entry 16). -/
def Obligations.OpenPerformsTheHandshake : Prop :=
  ∀ (s : State) (i : Instr), i = .openCmd ∨ i = .initCmd → s.quiet → s.opened = false →
    (∀ k, k < 5 → (s.answer k).status % 2 ^ s.cfg.perrW = 0) →
    Drawn.bytes ⟨s.answer 4, s.draws + 4⟩ s.cfg.srExpected.length = s.cfg.srExpected →
    ∃ t, exec i s = .next t ∧ t.opened = true ∧ t.condition = .configured ∧ t.hr = some (Response.status .ok 0) ∧
      t.trace = [.peripheralOpen s.cfg.periphConfig 0, .directWrite [s.cfg.cmdWren] 1 false 0,
        .directWrite (s.cfg.cmdWrsr :: s.cfg.srExpected) (1 + s.cfg.srExpected.length) false 0,
        .directWrite [s.cfg.cmdRdsr] 1 true 0, .directRead s.cfg.srExpected.length 0 s.cfg.srExpected] ∧
      t.fsm = .idle ∧ t.hb = s.hb ∧ t.hc = s.hc ∧ t.cfg = s.cfg ∧ t.resets = [] ∧ t.devError = s.devError ∧
      t.draws = s.draws + 5 ∧
      (s.inFlight = none → t.flash = s.flash ∧ t.inFlight = none)

/-- R170: OPEN and INIT on an open block call no primitive and answer Ok; only the registers, the response and the trace
change. -/
def Obligations.RepeatedOpenIsANoOp : Prop :=
  ∀ (s : State) (i : Instr), i = .openCmd ∨ i = .initCmd → s.quiet → s.opened = true →
    ∃ r, exec i s = .next { s with regs := r, hr := some (Response.status .ok 0), trace := [] }

/-- R170, R173: OPEN and INIT are fail-fast. The first call that fails is the last one made, its code is the answer, and
`opened` stays 0. That an idle device keeps its flash array is the model's reading (log entry 16). -/
def Obligations.OpenFailsFast : Prop :=
  ∀ (s : State) (i : Instr) (k : Nat), i = .openCmd ∨ i = .initCmd → s.quiet → s.opened = false → k < 5 →
    (∀ j, j < k → (s.answer j).status % 2 ^ s.cfg.perrW = 0) → (s.answer k).status % 2 ^ s.cfg.perrW ≠ 0 →
    ∃ t, exec i s = .next t ∧ t.opened = false ∧ t.fsm = .idle ∧
      t.hr = some (Response.status .deviceError ((s.answer k).status % 2 ^ s.cfg.perrW)) ∧
      t.trace.length = k + 1 ∧ t.draws = s.draws + (k + 1) ∧ (s.inFlight = none → t.flash = s.flash) ∧
      t.hb = s.hb ∧ t.hc = s.hc ∧ t.cfg = s.cfg ∧ t.resets = [] ∧ t.devError = s.devError

/-- R171: a read-back that differs from `SR_EXPECTED` is answered `DeviceError(OPEN_MISMATCH_CODE)`, and `opened` stays
0. That an idle device keeps its flash array is the model's reading (log entry 16). -/
def Obligations.OpenReportsAMismatch : Prop :=
  ∀ (s : State) (i : Instr), i = .openCmd ∨ i = .initCmd → s.quiet → s.opened = false →
    (∀ k, k < 5 → (s.answer k).status % 2 ^ s.cfg.perrW = 0) →
    Drawn.bytes ⟨s.answer 4, s.draws + 4⟩ s.cfg.srExpected.length ≠ s.cfg.srExpected →
    ∃ t, exec i s = .next t ∧ t.opened = false ∧ t.fsm = .idle ∧
      t.hr = some (Response.status .deviceError s.cfg.openMismatchCode) ∧ t.trace.length = 5 ∧
      (s.inFlight = none → t.flash = s.flash) ∧ t.hb = s.hb ∧ t.hc = s.hc ∧ t.cfg = s.cfg ∧ t.resets = [] ∧
      t.devError = s.devError

/-- R174, R175, R176: CLOSE and DEINIT clear `opened` whatever the teardown answers, call `peripheral_close` once
whether or not the block is open, and pass its code on. That an idle device keeps its flash array is the model's reading
(log entry 16). -/
def Obligations.CloseClearsOpenedAndTearsDown : Prop :=
  ∀ (s : State) (i : Instr), i = .closeCmd ∨ i = .deinitCmd → s.quiet →
    ∃ t, exec i s = .next t ∧ t.opened = false ∧ t.trace = [.peripheralClose s.nextStatus] ∧
      t.hr = some (Response.status (if s.nextStatus = 0 then .ok else .deviceError) s.nextStatus) ∧
      t.fsm = .idle ∧ t.hb = s.hb ∧ t.hc = s.hc ∧ t.cfg = s.cfg ∧ t.resets = [] ∧ t.devError = s.devError ∧
      t.draws = s.draws + 1 ∧ (s.inFlight = none → t.flash = s.flash)

/-- R93, R176: an alias means what its command means, in every state. -/
def Obligations.AliasesMeanTheirCommands : Prop :=
  ∀ (i : Instr) (s : State), exec i s = exec i.canonical s

/-- R22, R177: no command but OPEN, CLOSE and their aliases changes `opened`. That none of the others changes the
peripheral's condition (R34 b) either is the model's reading (log entries 7 and 16). -/
def Obligations.OnlyOpenAndCloseChangeTheLifecycle : Prop :=
  ∀ (i : Instr) (s t : State), s.resets = [] → i.opcode ≠ 0 → i.opcode ≠ 1 → exec i s = .next t →
    t.opened = s.opened ∧ t.condition = s.condition

/-! ### Queries -/

/-- R180 to R185: the five queries complete in every state in which the block is idle, answer the configuration's values,
call no primitive, and change nothing but `op`, `st_kind`, `st_info`, `value`, the response and the trace. -/
def Obligations.QueriesAnswerTheConfiguration : Prop :=
  ∀ s : State, s.quiet →
    exec .size s = .next { s with
      regs := { s.regs with op := 5, stKind := .ok, stInfo := 0, value := s.cfg.totalSize }
      hr := some ⟨.ok, 0, s.cfg.totalSize, []⟩, trace := [] } ∧
    exec .getReadSize s = .next { s with
      regs := { s.regs with op := 6, stKind := .ok, stInfo := 0, value := s.cfg.readGran }
      hr := some ⟨.ok, 0, s.cfg.readGran, []⟩, trace := [] } ∧
    exec .getProgramSize s = .next { s with
      regs := { s.regs with op := 7, stKind := .ok, stInfo := 0, value := s.cfg.progGran }
      hr := some ⟨.ok, 0, s.cfg.progGran, []⟩, trace := [] } ∧
    exec .getEraseSize s = .next { s with
      regs := { s.regs with op := 8, stKind := .ok, stInfo := 0, value := s.cfg.eraseGran }
      hr := some ⟨.ok, 0, s.cfg.eraseGran, []⟩, trace := [] } ∧
    exec .getType s = .next { s with
      regs := { s.regs with op := 9, stKind := .ok, stInfo := 0, value := 0 }
      hr := some ⟨.ok, 0, 0, s.cfg.typeString⟩, trace := [] }

/-! ### Validation, zero length, and the one refusal of a command -/

/-- R110, R112: READ, PROGRAM and WRITE without a buffer answer InvalidArgument whatever the range, and with one
InvalidAddress outside the range; in both cases the trace is empty and nothing changes but the working registers, which
are no state of a command (R26), and the response. -/
def Obligations.FailedValidationChangesNothing : Prop :=
  ∀ (s : State) (bv : Bool) (address length : Nat) (i : Instr),
    i = .read bv address length ∨ i = .program bv address length ∨ i = .write bv address length → s.quiet →
    (bv = false →
      ∃ r, exec i s = .next { s with regs := r, hr := some (Response.status .invalidArgument 0), trace := [] }) ∧
    (bv = true → address + length > s.cfg.totalSize →
      ∃ r, exec i s = .next { s with regs := r, hr := some (Response.status .invalidAddress 0), trace := [] })

/-- R160, R212: ERASE outside the range answers InvalidAddress, with an empty trace and nothing else changed but the
working registers. -/
def Obligations.EraseOutOfRangeChangesNothing : Prop :=
  ∀ (s : State) (address length : Nat), s.quiet → address + length > s.cfg.totalSize →
    ∃ r, exec (.erase address length) s =
      .next { s with regs := r, hr := some (Response.status .invalidAddress 0), trace := [] }

/-- R145, R155, R162: a transfer of length zero that passes validation answers Ok, calls no primitive and changes
nothing else but the working registers. -/
def Obligations.ZeroLengthTransfersDoNothing : Prop :=
  ∀ (s : State) (address : Nat) (i : Instr),
    i = .read true address 0 ∨ i = .program true address 0 ∨ i = .write true address 0 ∨ i = .erase address 0 →
    s.quiet → address ≤ s.cfg.totalSize →
    ∃ r, exec i s = .next { s with regs := r, hr := some (Response.status .ok 0), trace := [] }

/-- R51, U14 (the model refuses, log entry 12): READ, PROGRAM and WRITE that pass validation with a host buffer shorter
than `LEN` are refused by name, and no other command and no other form is. -/
def Obligations.OnlyAShortBufferIsRefused : Prop :=
  ∀ (i : Instr) (s : State), s.fsm = .idle →
    (exec i s = .refused .bufferTooShort ↔
      ∃ address length, (i = .read true address length ∨ i = .program true address length ∨
        i = .write true address length) ∧ address + length ≤ s.cfg.totalSize ∧ s.hb.length < length) ∧
    (exec i s ≠ .refused .bufferTooShort → ∃ t, exec i s = .next t)

/-! ### READ -/

/-- R140, R146, R31: READ of a ready device whose `bank_select`s succeed: the buffer holds the flash bytes of
`[address, address + length)`, its other bytes and the flash array are unchanged, `active_bank` is the last segment's
bank, and nothing else of the machine but the registers, the trace, the response and the oracle's position changes. -/
def Obligations.ReadCopiesTheFlashIntoTheBuffer : Prop :=
  ∀ (s : State) (address length : Nat), s.cfg.wf = true → s.quiet → s.ready = true →
    s.allSucceed (callBound s.cfg length) → address + length ≤ s.cfg.totalSize → length ≤ s.hb.length →
    ∃ t, exec (.read true address length) s = .next t ∧ t.hr = some (Response.status .ok 0) ∧
      t.hb = s.flash.readRange address length ++ s.hb.drop length ∧ t.flash = s.flash ∧
      t.activeBank = (if length = 0 then s.activeBank else (address + length - 1) / s.cfg.window) ∧
      t.fsm = .idle ∧ t.opened = s.opened ∧ t.inFlight = none ∧ t.condition = s.condition ∧ t.devError = s.devError ∧
      t.hc = s.hc ∧ t.cfg = s.cfg ∧ t.resets = []

/-- R141, R143: the trace of a READ that answers Ok has one `bank_select` and one `MemRead` for each bank the range
touches, and no other entry; within one bank it is exactly those two, in this order. -/
def Obligations.ReadHasOneSegmentPerBank : Prop :=
  ∀ (s : State) (address length : Nat), s.cfg.wf = true → s.quiet → s.allSucceed (callBound s.cfg length) →
    0 < length → address + length ≤ s.cfg.totalSize → length ≤ s.hb.length →
    ∃ t, exec (.read true address length) s = .next t ∧
      countBankSelects t.trace = (address + length - 1) / s.cfg.window - address / s.cfg.window + 1 ∧
      countMemReads t.trace = countBankSelects t.trace ∧ t.trace.length = 2 * countBankSelects t.trace ∧
      ((address + length - 1) / s.cfg.window = address / s.cfg.window →
        ∃ bytes, t.trace = [.bankSelect (address / s.cfg.window) 0, .memRead (translatePa s.cfg address) length bytes])

/-- R144: a READ on a ready device one of whose `bank_select`s failed answers DeviceError with that call's code and no
value, and that call is its last. The buffer holds the flash bytes of the segments before it (they end at the bank
boundary the failed call would have passed), the rest of the buffer is untouched, and so is the flash array. -/
def Obligations.FailedReadLeavesAPrefixOfSegments : Prop :=
  ∀ (s t : State) (address length bank st : Nat), s.cfg.wf = true → s.quiet → s.ready = true →
    exec (.read true address length) s = .next t → .bankSelect bank st ∈ t.trace → st ≠ 0 →
    t.hr = some (Response.status .deviceError st) ∧ t.trace.getLast? = some (.bankSelect bank st) ∧ t.flash = s.flash ∧
      ∃ done, done < length ∧ (done = 0 ∨ (address + done) % s.cfg.window = 0) ∧
        bank = (address + done) / s.cfg.window ∧ t.hb = s.flash.readRange address done ++ s.hb.drop done

/-- R140: the frame of READ, whatever the oracle answers: on a ready device the flash array, the device, the lifecycle
and the buffer's bytes past the request are unchanged. -/
def Obligations.ReadFrame : Prop :=
  ∀ (s t : State) (bv : Bool) (address length : Nat), s.cfg.wf = true → s.quiet → s.ready = true →
    exec (.read bv address length) s = .next t →
    t.flash = s.flash ∧ t.inFlight = none ∧ t.opened = s.opened ∧ t.condition = s.condition ∧
      t.devError = s.devError ∧ t.hb.length = s.hb.length ∧ t.hb.drop length = s.hb.drop length ∧ t.hc = s.hc ∧
      t.cfg = s.cfg ∧ t.resets = [] ∧ t.fsm = .idle

/-! ### PROGRAM -/

/-- R150, R151, R61, R65: PROGRAM and WRITE on a ready device that succeeds and finishes: every byte of the request that
was erased holds the buffer's byte (one that was not may take any value, R61, and nothing is said of it), every byte
outside the request is unchanged, the buffer is unchanged, and the device is idle again. -/
def Obligations.ProgramWritesTheErasedBytes : Prop :=
  ∀ (s : State) (address length : Nat) (i : Instr), i = .program true address length ∨ i = .write true address length →
    s.cfg.wf = true → s.quiet → s.ready = true → s.flash.wf → s.allSucceed (callBound s.cfg length) →
    s.healthy (callBound s.cfg length) → address + length ≤ s.cfg.totalSize → length ≤ s.hb.length →
    ∃ t, exec i s = .next t ∧ t.hr = some (Response.status .ok 0) ∧
      (∀ k, k < length → s.flash.read (address + k) = erasedByte → t.flash.read (address + k) = s.hb.getD k 0) ∧
      (∀ a, a < address ∨ address + length ≤ a → t.flash.read a = s.flash.read a) ∧
      t.hb = s.hb ∧ t.inFlight = none ∧
      t.activeBank = (if length = 0 then s.activeBank else (address + length - 1) / s.cfg.window) ∧
      t.fsm = .idle ∧ t.opened = s.opened ∧ t.condition = s.condition ∧ t.hc = s.hc ∧ t.cfg = s.cfg ∧ t.resets = []

/-- R150, R153: the frame of PROGRAM and WRITE on a ready device, whatever the oracle answers: outside the request every
byte of the array is unchanged, and so are the buffer and the lifecycle. That a failed segment stays in its bytes is the
model's reading (log entry 18). -/
def Obligations.ProgramFrame : Prop :=
  ∀ (s t : State) (bv : Bool) (address length : Nat) (i : Instr),
    i = .program bv address length ∨ i = .write bv address length →
    s.cfg.wf = true → s.quiet → s.ready = true → s.flash.wf → exec i s = .next t →
    (∀ a, a < address ∨ address + length ≤ a → t.flash.read a = s.flash.read a) ∧ t.hb = s.hb ∧
      t.opened = s.opened ∧ t.condition = s.condition ∧ t.hc = s.hc ∧ t.cfg = s.cfg ∧ t.resets = [] ∧ t.fsm = .idle

/-- R154: a PROGRAM (or WRITE) that answers Ok and whose segments are `n` (its calls of `program`) has made `n` calls of
`bank_select`, between `n` and `n * POLL_LIMIT` of `status_get` and no other, in the order (`bank_select`, `program`,
`status_get`+) repeated `n` times: its trace ends after a sample of a complete group. -/
def Obligations.ProgramPollsEverySegment : Prop :=
  ∀ (s t : State) (address length : Nat) (r : Response) (i : Instr),
    i = .program true address length ∨ i = .write true address length → s.cfg.wf = true → s.quiet → 0 < length →
    address + length ≤ s.cfg.totalSize → exec i s = .next t → t.hr = some r → r.kind = .ok →
    countBankSelects t.trace = countMutations t.trace ∧ countMutations t.trace ≤ countSamples t.trace ∧
      countSamples t.trace ≤ countMutations t.trace * s.cfg.pollLimit ∧
      t.trace.length = 2 * countMutations t.trace + countSamples t.trace ∧
      ∃ k, 3 ≤ k ∧ i.position s.cfg.pollLimit t.trace = some k

/-- R151: the segments of a PROGRAM (or WRITE) that answers Ok are the program pages its range touches, in order: there
are as many, and the `j`-th call of `program` has the buffer's bytes of the request in the `j`-th page, at the physical
address of the first. -/
def Obligations.ProgramHasOneSegmentPerPage : Prop :=
  ∀ (s t : State) (address length : Nat) (r : Response) (i : Instr),
    i = .program true address length ∨ i = .write true address length → s.cfg.wf = true → s.quiet → 0 < length →
    address + length ≤ s.cfg.totalSize → exec i s = .next t → t.hr = some r → r.kind = .ok →
    countMutations t.trace = (address + length - 1) / s.cfg.progGran - address / s.cfg.progGran + 1 ∧
      programCalls t.trace = (List.range (countMutations t.trace)).map fun j =>
        let n := pageEnd s.cfg address length j - pageStart s.cfg address j
        ((s.hb.drop (pageStart s.cfg address j - address)).take n, translatePa s.cfg (pageStart s.cfg address j), n)

/-- R152 (the source's boundary property): a PROGRAM cut at a page boundary is the two PROGRAMs one after the other, for
every oracle: the same primitives with the same arguments, the same flash array, the same answer, if the first part
answers Ok; and if it does not, the whole stops where it does. -/
def Obligations.SplitProgramIsTransparent : Prop :=
  ∀ (s t t1 : State) (address k rest : Nat), s.cfg.wf = true → s.quiet → (address + k) % s.cfg.progGran = 0 →
    address + (k + rest) ≤ s.cfg.totalSize →
    exec (.program true address (k + rest)) s = .next t → exec (.program true address k) s = .next t1 →
    (t1.hr ≠ some (Response.status .ok 0) → t.hr = t1.hr ∧ t.trace = t1.trace ∧ t.flash = t1.flash) ∧
    (t1.hr = some (Response.status .ok 0) →
      ∃ t2, exec (.program true (address + k) rest) { t1 with hb := s.hb.drop k } = .next t2 ∧
        t.trace = t1.trace ++ t2.trace ∧ t.flash = t2.flash ∧ t.hr = t2.hr ∧ t.activeBank = t2.activeBank ∧
        t.inFlight = t2.inFlight)

/-! ### ERASE -/

/-- R160, R162, R165: ERASE in `perGranule` mode on a ready device that succeeds and finishes: exactly the
`ceil(length / ERASE_GRAN)` blocks from the block of `address` on read as erased, every other byte of the array is
unchanged, the device is idle again, `active_bank` is the last block's bank (R31, R254), and no buffer is touched. -/
def Obligations.EraseClearsWholeBlocks : Prop :=
  ∀ (s : State) (address length : Nat), s.cfg.wf = true → s.cfg.eraseMode = .perGranule → s.quiet → s.ready = true →
    s.allSucceed (callBound s.cfg length) → s.healthy (callBound s.cfg length) → address + length ≤ s.cfg.totalSize →
    ∃ t, exec (.erase address length) s = .next t ∧ t.hr = some (Response.status .ok 0) ∧
      (∀ a, t.flash.read a =
        if alignDownBlock s.cfg address ≤ a ∧
            a < alignDownBlock s.cfg address + ceilDiv length s.cfg.eraseGran * s.cfg.eraseGran
        then erasedByte else s.flash.read a) ∧
      countMutations t.trace = ceilDiv length s.cfg.eraseGran ∧
      t.activeBank = (if length = 0 then s.activeBank else
        (alignDownBlock s.cfg address + (ceilDiv length s.cfg.eraseGran - 1) * s.cfg.eraseGran) / s.cfg.window) ∧
      t.hb = s.hb ∧ t.inFlight = none ∧ t.fsm = .idle ∧ t.opened = s.opened ∧ t.condition = s.condition ∧
      t.hc = s.hc ∧ t.cfg = s.cfg ∧ t.resets = []

/-- R167: ERASE in `overlap` mode on a ready device that succeeds and finishes clears exactly the blocks that overlap
the request; `active_bank` is the last block's bank (R31, R254). -/
def Obligations.OverlapEraseClearsOverlappingBlocks : Prop :=
  ∀ (s : State) (address length : Nat), s.cfg.wf = true → s.cfg.eraseMode = .overlap → s.quiet → s.ready = true →
    s.allSucceed (callBound s.cfg length) → s.healthy (callBound s.cfg length) → 0 < length →
    address + length ≤ s.cfg.totalSize →
    ∃ t, exec (.erase address length) s = .next t ∧ t.hr = some (Response.status .ok 0) ∧
      (∀ a, t.flash.read a =
        if address / s.cfg.eraseGran ≤ a / s.cfg.eraseGran ∧
            a / s.cfg.eraseGran ≤ (address + length - 1) / s.cfg.eraseGran
        then erasedByte else s.flash.read a) ∧
      t.activeBank = alignDownBlock s.cfg (address + length - 1) / s.cfg.window ∧ t.inFlight = none ∧ t.hb = s.hb ∧ t.opened = s.opened

/-- R166: for a request aligned to `ERASE_GRAN` the two accounting modes are the same, for every oracle: the same trace,
the same flash array, the same answer. -/
def Obligations.EraseModesAgreeOnAlignedRequests : Prop :=
  ∀ (s : State) (address length : Nat) (m : EraseMode), s.cfg.wf = true → s.cfg.eraseGran ∣ address →
    s.cfg.eraseGran ∣ length →
    observe (exec (.erase address length) s) =
      observe (exec (.erase address length) { s with cfg := { s.cfg with eraseMode := m } })

/-- R160, R162, R167, R169: the frame of ERASE on a ready device, whatever the oracle answers: outside the blocks that
the accounting of the request's mode covers (in `perGranule` mode `ceil(length / ERASE_GRAN)` blocks from that of
`address` on, in `overlap` mode those that overlap the request) every byte of the array is unchanged, and so are the
buffer and the lifecycle. That a failed block stays in its bytes is the model's reading (log entry 18). -/
def Obligations.EraseFrame : Prop :=
  ∀ (s t : State) (address length : Nat), s.cfg.wf = true → s.quiet → s.ready = true → s.flash.wf →
    exec (.erase address length) s = .next t →
    (∀ a, a < alignDownBlock s.cfg address ∨ eraseEnd s.cfg address length ≤ a →
        t.flash.read a = s.flash.read a) ∧
      t.hb = s.hb ∧ t.opened = s.opened ∧ t.condition = s.condition ∧ t.hc = s.hc ∧ t.cfg = s.cfg ∧
      t.resets = [] ∧ t.fsm = .idle

/-- R213, R153, R219: a PROGRAM, WRITE or ERASE whose device never finishes answers Timeout in its first segment, after
exactly `POLL_LIMIT` samples: nothing is issued after them, the operation stays in flight, `active_bank` is that of the
segment. That the operation stays in flight is the model's reading of R219 (log entry 18). -/
def Obligations.DeviceThatNeverFinishesTimesOut : Prop :=
  ∀ (s : State) (address length : Nat) (i : Instr), s.cfg.wf = true → s.quiet → s.ready = true →
    s.allSucceed (s.cfg.pollLimit + 2) → (∀ k, k < s.cfg.pollLimit + 2 → (s.answer k).settled = false) → 0 < length →
    address + length ≤ s.cfg.totalSize →
    ((i = .program true address length ∨ i = .write true address length) ∧ length ≤ s.hb.length) ∨
      i = .erase address length →
    ∃ t first, exec i s = .next t ∧ t.hr = some (Response.status .timeout 0) ∧
      t.trace = .bankSelect (address / s.cfg.window) 0 :: first :: List.replicate s.cfg.pollLimit (.statusGet 0 true) ∧
      first.code = 0 ∧ countMutations [first] = 1 ∧ t.activeBank = address / s.cfg.window ∧ t.inFlight.isSome = true ∧
      t.opened = s.opened ∧ t.fsm = .idle

/-! ### The three together -/

/-- R146 (the source's round trip): ERASE of an aligned region, then PROGRAM of any range inside it, then READ of that
range returns exactly the buffer that was programmed, on a device that is ready, succeeds and finishes. -/
def Obligations.EraseProgramReadRoundTrips : Prop :=
  ∀ (s : State) (start size address : Nat) (data back : List Byte), s.cfg.wf = true → s.quiet → s.ready = true →
    s.flash.wf → s.allSucceed (callBound s.cfg (size + 2 * data.length)) →
    s.healthy (callBound s.cfg (size + 2 * data.length)) → s.cfg.eraseGran ∣ start → s.cfg.eraseGran ∣ size →
    start + size ≤ s.cfg.totalSize → start ≤ address → address + data.length ≤ start + size →
    back.length = data.length →
    ∃ t1 t2 t3, exec (.erase start size) s = .next t1 ∧
      exec (.program true address data.length) { t1 with hb := data } = .next t2 ∧
      exec (.read true address data.length) { t2 with hb := back } = .next t3 ∧
      t3.hr = some (Response.status .ok 0) ∧ t3.hb = data

/-! ### Whole-machine rules -/

/-- R71, R91, R215, R261: every command of a legal configuration, in every state in which the block is idle and whatever
the oracle answers, ends with the block idle and one response, of a kind the command may answer; a value comes with
SIZE and the three granularity queries only, a string with GET_TYPE only. That it ends has the proviso of R71 and R204,
that every primitive returns, which is the model's assumption (log entry 17). -/
def Obligations.EveryCommandEndsWithItsResponse : Prop :=
  ∀ (i : Instr) (s : State), s.cfg.wf = true → s.quiet → s.bufferFits i = true →
    ∃ t r, exec i s = .next t ∧ t.fsm = .idle ∧ t.hr = some r ∧ r.kind ∈ i.kinds ∧ t.resets = [] ∧
      (i.opcode.toNat < 5 ∨ i.opcode.toNat = 9 → r.value = 0) ∧ (i.opcode ≠ 9 → r.str = [])

/-- R214, R216, R217: the first failing call is the last one. A command that answers DeviceError ends with the call that
failed and carries its code, every call before it having succeeded; a command that answers anything else carries no
code, and every one of its calls succeeded. The one exception is OPEN's mismatch (R171). -/
def Obligations.ErrorsReportTheFirstFailure : Prop :=
  ∀ (i : Instr) (s t : State) (r : Response), s.quiet → exec i s = .next t → t.hr = some r →
    (r.kind = .deviceError →
      (∃ before last, t.trace = before ++ [last] ∧ (∀ e ∈ before, e.code = 0) ∧ last.code ≠ 0 ∧ r.info = last.code) ∨
      (i.opcode = 0 ∧ (∀ e ∈ t.trace, e.code = 0) ∧ r.info = s.cfg.openMismatchCode)) ∧
    (r.kind ≠ .deviceError → r.info = 0 ∧ ∀ e ∈ t.trace, e.code = 0)

/-- R65, R261: a PROGRAM, WRITE or ERASE of at least one byte that starts on an idle device and answers Ok leaves no
program or erase of this command in flight, whatever the oracle answers, on a closed block too. -/
def Obligations.OkLeavesNothingInFlight : Prop :=
  ∀ (i : Instr) (s t : State) (r : Response) (address length : Nat),
    i = .program true address length ∨ i = .write true address length ∨ i = .erase address length → 0 < length →
    s.cfg.wf = true → s.quiet → s.inFlight = none → exec i s = .next t → t.hr = some r → r.kind = .ok →
    t.inFlight = none

/-- R195 to R199, R119, R163, R201: every primitive call of every command, whatever the oracle answers, has legal
arguments: a bank that exists, a range inside the window that crosses no page, or one aligned erase block. -/
def Obligations.PrimitiveArgumentsAreLegal : Prop :=
  ∀ (i : Instr) (s t : State), s.cfg.wf = true → exec i s = .next t → ∀ e ∈ t.trace, e.legal s.cfg

/-- R200: every command, whatever the oracle answers, makes the calls of its row only, in the order of its row, a status
poll of 1 to `POLL_LIMIT` samples between a program or erase and the next iteration; OPEN on an open block, the queries
and a reserved encoding make none. (A command that ends early has made a beginning of its order.) -/
def Obligations.CommandsCallTheirPrimitivesInOrder : Prop :=
  (∀ (i : Instr) (s t : State), s.cfg.wf = true → exec i s = .next t →
    (i.position s.cfg.pollLimit t.trace).isSome = true ∧ (i.opcode = 0 → s.opened = true → t.trace = []) ∧
      (5 ≤ i.opcode.toNat → t.trace = [])) ∧
    ∀ (d : Descriptor) (e : Reserved) (s t : State), decode d = .error e → runDescriptor d s = .next t → t.trace = []

/-- R25, R83, R185: which working registers a command that runs to its response may have changed. Its operands are as
they were loaded; OPEN, CLOSE and the queries change only `op`, the status latch and `value`; ERASE leaves `buf_off`, and
READ `poll_cnt`. The fields a format ignores load nothing (log entry 11). -/
def Obligations.CommandsChangeOnlyTheirRegisters : Prop :=
  ∀ (i : Instr) (s t : State), s.resets = [] → exec i s = .next t →
    (t.regs.op = i.opcode ∧ t.regs.bufValid = (i.load s.regs).bufValid ∧ t.regs.addr = (i.load s.regs).addr ∧
      t.regs.len = (i.load s.regs).len) ∧
    (i.opcode = 4 → t.regs.bufOff = s.regs.bufOff) ∧ (i.opcode = 2 → t.regs.pollCnt = s.regs.pollCnt) ∧
    (i.opcode ≠ 2 → i.opcode ≠ 3 → i.opcode ≠ 4 →
      t.regs = { s.regs with op := i.opcode, stKind := t.regs.stKind, stInfo := t.regs.stInfo, value := t.regs.value })

/-- R26, U22, R220: nothing a command does depends on what the working registers held before it: the same outcome and
the same next state but for the registers (the configuration being the same). -/
def Obligations.WorkingRegistersAreEphemeral : Prop :=
  ∀ (i : Instr) (s : State) (r : Regs), s.cfg.wf = true → s.resets = [] →
    observe (exec i { s with regs := r }) = observe (exec i s)

/-- R125, R142: `READ_GRAN` enters no computation: only GET_READ_SIZE sees it. -/
def Obligations.ReadGranularityEntersNoTransfer : Prop :=
  ∀ (i : Instr) (s : State) (g : Nat), i ≠ .getReadSize →
    observe (exec i { s with cfg := { s.cfg with readGran := g } }) = observe (exec i s)

/-- R20: no step changes the configuration. -/
def Obligations.StepsKeepTheConfiguration : Prop :=
  ∀ s t : State, step s = .next t → t.cfg = s.cfg

/-! ### The step, reset, and the invariant -/

/-- R80, R84: when the host offers a descriptor that decodes to a command, a step of the idle block takes it from the
port, with its buffer, and is `exec` of that command. That one step runs the whole command, from its acceptance to its
response, is the model's choice of stepping (log entry 14, allowed by D23), and so is that taking the descriptor, the
move from `S_IDLE` to `S_CHECK`, brings a scheduled reset one sequencer step nearer (log entry 5). -/
def Obligations.StepRunsTheDecodedCommand : Prop :=
  ∀ (s : State) (q : Request) (rest : List Request) (i : Instr), s.cfg.wf = true → s.fsm = .idle →
    s.resets.head? ≠ some 0 → s.hc = q :: rest → q.desc.fits s.cfg = true → decode q.desc = .ok i →
    step s = exec i { s with hc := rest, hb := q.buf.getD s.hb, resets := nearer s.resets }

/-- R23, R241: in `S_IDLE` with nothing offered the block waits. That a step from a state inside a command is one
sequencer step is the model's choice of stepping (log entry 14, allowed by D23). -/
def Obligations.StepGoesOnOrWaits : Prop :=
  ∀ s : State, s.cfg.wf = true → s.resets = [] →
    (s.fsm ≠ .idle → step s = .next s.tick) ∧ (s.fsm = .idle → s.hc = [] → step s = .next s)

/-- R23, R16, R54: a sequencer step inside a command moves along the next-state column of the table, READ never into the
poll and PROGRAM and ERASE never from the transfer straight to the advance, and makes at most one call of the peripheral.
That the two calls of `S_HS_RDBK` are two sequencer steps is the model's choice (log entry 26). -/
def Obligations.SequencerFollowsItsTable : Prop :=
  ∀ s : State, s.resets = [] → s.fsm ≠ .idle →
    s.tick.fsm ∈ s.fsm.successors ∧ (s.fsm = .xfer → s.regs.op = 2 → s.tick.fsm = .adv) ∧
      (s.fsm = .xfer → s.regs.op ≠ 2 → s.tick.fsm ≠ .adv) ∧ s.tick.draws ≤ s.draws + 1

/-- R87, R243, R258: a step that finds a reserved encoding answers it InvalidArgument, with an empty trace, and changes
nothing else but the registers and the port the descriptor came from. A reset due before its visit of `S_CHECK` or
before its visit of `S_RESP` (after one or two sequencer steps, its acceptance being the first) leaves it unanswered; a
later one is still to come. The schedule of the resets is the model's input (log entry 5). -/
def Obligations.StepAnswersReservedEncodings : Prop :=
  ∀ (s : State) (q : Request) (rest : List Request) (e : Reserved), s.cfg.wf = true → s.fsm = .idle → s.hc = q :: rest →
    q.desc.fits s.cfg = true → decode q.desc = .error e →
    (s.resets = [] → ∃ r, step s = .next { s with
      hc := rest, hb := q.buf.getD s.hb, regs := r, hr := some (Response.status .invalidArgument 0), trace := [] }) ∧
    ∀ (k : Nat) (later : List Nat), s.resets = (k + 1) :: later →
      (k < 2 → ∃ r, step s = .next { s with
        hc := rest, hb := q.buf.getD s.hb, opened := false, regs := r, hr := none, trace := [], resets := later }) ∧
      (2 ≤ k → ∃ r, step s = .next { s with
        hc := rest, hb := q.buf.getD s.hb, regs := r, hr := some (Response.status .invalidArgument 0), trace := [],
        resets := (k - 2) :: later })

/-- R240, R242, R243: a reset that is due, at any sequencer state, is the step: the block is idle and closed with no
response pending, no primitive is called, and the configuration, the host and everything outside the block are as they
were; the host's later resets are still to come. The registers are unspecified (log entry 3). -/
def Obligations.ResetAbandonsTheCommand : Prop :=
  ∀ (s : State) (later : List Nat), s.cfg.wf = true → s.resets = 0 :: later →
    ∃ r, step s = .next { s with opened := false, fsm := .idle, regs := r, hr := none, resets := later }

/-- R243, R258: a command that takes `n` sequencer steps to its response without a reset, and a reset due after `k` of
them. If `k < n` the reset abandons the command: what it has done in `k` steps stays done, the block is idle and closed,
and no response is delivered. If not, the command ends with its response, and the reset is still to come. The schedule
of the resets is the model's input (log entry 5). -/
def Obligations.ResetDuringACommandLeavesNoResponse : Prop :=
  ∀ (i : Instr) (s : State) (k : Nat) (later : List Nat), s.cfg.wf = true → s.fsm = .idle → s.resets = k :: later →
    s.bufferFits i = true →
    let a := { s with resets := [] }.accept (i.load s.regs)
    ∃ n, (a.ticks n).fsm = .idle ∧ (∀ m, m < n → (a.ticks m).fsm ≠ .idle) ∧ (a.ticks n).hr.isSome = true ∧
      (k < n → ∃ r, exec i s = .next { a.ticks k with
        opened := false, fsm := .idle, regs := r, hr := none, resets := later }) ∧
      (n ≤ k → exec i s = .next { a.ticks n with resets := (k - n) :: later })

/-- R24, R27, R25, R161, R170: every step keeps the invariant, from every state that meets it, at every sequencer
state. -/
def Obligations.StepsKeepTheInvariant : Prop :=
  ∀ s t : State, s.Inv → step s = .next t → t.Inv

/-- R36, R37: after reset the block is closed and idle with no response pending and its configuration bound, and the
invariant holds, for every legal configuration; the clauses of the invariant about the registers and the peripheral rest
on log entries 3 and 6. -/
def Obligations.ResetMeetsTheInvariant : Prop :=
  ∀ c : Config, c.wf = true →
    (State.resetOf c).Inv ∧ (State.resetOf c).opened = false ∧ (State.resetOf c).fsm = .idle ∧
      (State.resetOf c).hr = none ∧ (State.resetOf c).cfg = c

/-- R27, R119: at entry to `S_XFER` the segment fits its bank, and its page or its block. -/
def Obligations.SegmentFitsItsBankAndGranule : Prop :=
  ∀ s : State, s.Inv → s.fsm = .xfer →
    1 ≤ s.regs.segLen ∧ s.regs.segLen ≤ s.cfg.window - (s.regs.pa - s.cfg.baseAddress) ∧
      (s.regs.op = 2 ∨ s.regs.op = 3 → s.regs.segLen ≤ s.cfg.window - s.regs.cursor % s.cfg.window) ∧
      (s.regs.op = 3 → s.regs.segLen ≤ s.cfg.progGran - s.regs.cursor % s.cfg.progGran) ∧
      (s.regs.op = 4 → s.regs.segLen = s.cfg.eraseGran ∧ (s.regs.pa - s.cfg.baseAddress) % s.cfg.eraseGran = 0)

/-! ### The device's busy condition, and segments already done -/

/-- R30, R203: a device that is idle becomes busy only in a sequencer step that calls `program` or `erase_block`, and
it does when a ready device accepts one; a sample that finds it not busy, error or not, leaves it idle; and no command
but PROGRAM, WRITE and ERASE makes an idle device busy. It is the model's reading in three places, where the spec leaves
more open: on a closed block (R252; log entry 7); for the calls of OPEN, CLOSE, INIT and DEINIT, after whose failure
R219's table has busy 'not specified' (log entry 16); after a sample with an error, of which it says the same (log entry
18). -/
def Obligations.OnlyAProgramOrAnEraseMakesTheDeviceBusy : Prop :=
  (∀ s : State, s.inFlight = none → s.fsm ≠ .xfer ∨ s.regs.op = 2 → s.tick.inFlight = none) ∧
    (∀ s : State, s.ready = true → s.fsm = .xfer → s.regs.op ≠ 2 → s.nextStatus = 0 → s.resets.head? ≠ some 0 →
      s.tick.busy = true) ∧
    (∀ s : State, s.fsm = .poll → s.resets.head? ≠ some 0 → s.sampleBusy = false → s.tick.inFlight = none) ∧
    ∀ (i : Instr) (s t : State), s.inFlight = none → i.opcode ≠ 3 → i.opcode ≠ 4 → exec i s = .next t →
      t.inFlight = none

/-- R153, R160, R219: ERASE, PROGRAM and WRITE on a ready device, whatever the oracle answers: the segments that were
complete before the command ended (one for each sample without error that found the device not busy) are not undone.
Their blocks read as erased, the erased bytes of their pages hold the buffer's. That no byte past the segment after them
has changed is the model's reading for the segment that failed (log entry 18). -/
def Obligations.EarlierSegmentsAreNotUndone : Prop :=
  ∀ (s t : State) (address length : Nat), s.cfg.wf = true → s.quiet → s.ready = true → s.flash.wf →
    (exec (.erase address length) s = .next t →
      (∀ a, alignDownBlock s.cfg address ≤ a →
        a < alignDownBlock s.cfg address + countCompleted t.trace * s.cfg.eraseGran → t.flash.read a = erasedByte) ∧
      ∀ a, alignDownBlock s.cfg address + (countCompleted t.trace + 1) * s.cfg.eraseGran ≤ a →
        t.flash.read a = s.flash.read a) ∧
    ∀ (i : Instr) (bv : Bool), i = .program bv address length ∨ i = .write bv address length → exec i s = .next t →
      (∀ a, address ≤ a → a < address + length →
        a < (address / s.cfg.progGran + countCompleted t.trace) * s.cfg.progGran → s.flash.read a = erasedByte →
        t.flash.read a = s.hb.getD (a - address) 0) ∧
      ∀ a, (address / s.cfg.progGran + countCompleted t.trace + 1) * s.cfg.progGran ≤ a →
        t.flash.read a = s.flash.read a
end

