-- ==== Sys2Proof/Laws/Memory.lean ====
section
/-! SUPPORT. Read-after-write for the flash array, and that every memory operation keeps its canonical form and stays
inside the device. -/

namespace Sys2Proof.Machine

/-- Addresses strictly rising: the half of `Memory.wf` that reading after writing rests on. -/
abbrev Memory.sorted (m : Memory) : Prop := m.Pairwise (fun a b => a.1 < b.1)

theorem Memory.read_eq_erased_of_forall_ne {m : Memory} {a : Nat} (h : ∀ c ∈ m, c.1 ≠ a) : m.read a = erasedByte := by
  induction m with
  | nil => rfl
  | cons c m ih =>
    obtain ⟨k, v⟩ := c
    simp only [List.mem_cons, forall_eq_or_imp] at h
    simp [Memory.read, h.1, ih h.2]

theorem Memory.mem_write {m : Memory} {a : Nat} {b : Byte} {c : Host.Cell} (h : c ∈ m.write a b) :
    c ∈ m ∨ (c = (a, b) ∧ b ≠ erasedByte) := by
  induction m with
  | nil =>
    simp only [Memory.write] at h
    split at h <;> simp_all
  | cons x m ih =>
    obtain ⟨k, v⟩ := x
    simp only [Memory.write] at h
    split at h
    · split at h <;> simp_all
      tauto
    · split at h
      · split at h <;> simp_all
        tauto
      · simp only [List.mem_cons] at h ⊢
        rcases h with h | h
        · exact .inl (.inl h)
        · rcases ih h with h | h
          · exact .inl (.inr h)
          · exact .inr h

theorem Memory.sorted_write {m : Memory} (h : m.sorted) (a : Nat) (b : Byte) : (m.write a b).sorted := by
  induction m with
  | nil => simp only [Memory.write]; split <;> simp
  | cons x m ih =>
    obtain ⟨k, v⟩ := x
    simp only [List.pairwise_cons] at h
    simp only [Memory.write]
    split
    · split
      · simpa using h
      · simp only [List.pairwise_cons, List.mem_cons, forall_eq_or_imp]
        exact ⟨⟨by assumption, fun c hc => lt_trans (by assumption) (h.1 c hc)⟩, h⟩
    · split
      · split
        · exact h.2
        · simp only [List.pairwise_cons]
          subst_vars
          exact h
      · simp only [List.pairwise_cons]
        refine ⟨fun c hc => ?_, ih h.2⟩
        rcases Memory.mem_write hc with hc | ⟨rfl, -⟩
        · exact h.1 c hc
        · simp only; omega

/-- A write is read back at its address and leaves every other address alone. -/
theorem Memory.read_write {m : Memory} (h : m.sorted) (a : Nat) (b : Byte) (x : Nat) :
    (m.write a b).read x = if x = a then b else m.read x := by
  induction m with
  | nil =>
    simp only [Memory.write]
    split <;> simp_all [Memory.read, eq_comm]
  | cons c m ih =>
    obtain ⟨k, v⟩ := c
    simp only [List.pairwise_cons] at h
    have absent : ∀ y, y ≤ k → Memory.read m y = erasedByte := fun y hy =>
      Memory.read_eq_erased_of_forall_ne fun c hc => by have := h.1 c hc; omega
    simp only [Memory.write]
    split
    · rename_i hlt
      split
      · subst_vars
        by_cases hx : x = a
        · subst hx
          simp [Memory.read, absent x (by omega), show ¬k = x by omega]
        · simp [hx]
      · simp [Memory.read, eq_comm]
    · split
      · rename_i hak
        subst hak
        split
        · subst_vars
          by_cases hx : x = a
          · subst hx; simp [absent x le_rfl]
          · simp [Memory.read, hx, show ¬a = x from fun e => hx e.symm]
        · by_cases hx : x = a
          · simp [Memory.read, hx]
          · simp [Memory.read, hx, show ¬a = x from fun e => hx e.symm]
      · simp only [Memory.read, ih h.2]
        by_cases hx : k = x
        · subst hx
          simp [show ¬k = a by omega]
        · simp [hx]

theorem Memory.wf_write {m : Memory} (h : m.wf) (a : Nat) (b : Byte) : (m.write a b).wf :=
  ⟨Memory.sorted_write h.1 a b, fun c hc => by
    rcases Memory.mem_write hc with hc | ⟨rfl, hb⟩
    · exact h.2 c hc
    · exact hb⟩

theorem Memory.wf_put {m : Memory} (h : m.wf) (total a : Nat) (b : Byte) : (m.put total a b).wf := by
  unfold Memory.put
  split
  · exact Memory.wf_write h a b
  · exact h

theorem Memory.below_put {m : Memory} {total : Nat} (h : m.below total) (a : Nat) (b : Byte) :
    (m.put total a b).below total := by
  unfold Memory.put
  split
  · intro c hc
    rcases Memory.mem_write hc with hc | ⟨rfl, -⟩
    · exact h c hc
    · assumption
  · exact h

theorem Memory.read_put {m : Memory} (h : m.sorted) (total a : Nat) (b : Byte) (x : Nat) :
    (m.put total a b).read x = if x = a ∧ a < total then b else m.read x := by
  unfold Memory.put
  split
  · simp [Memory.read_write h, *]
  · simp [*]

theorem Memory.sorted_put {m : Memory} (h : m.sorted) (total a : Nat) (b : Byte) : (m.put total a b).sorted := by
  unfold Memory.put
  split
  · exact Memory.sorted_write h a b
  · exact h

theorem Memory.wf_store {m : Memory} (h : m.wf) (total a : Nat) (bs : List Byte) : (m.store total a bs).wf := by
  induction bs generalizing m a with
  | nil => exact h
  | cons b bs ih => exact ih (Memory.wf_put h total a b) (a + 1)

theorem Memory.below_store {m : Memory} {total : Nat} (h : m.below total) (a : Nat) (bs : List Byte) :
    (m.store total a bs).below total := by
  induction bs generalizing m a with
  | nil => exact h
  | cons b bs ih => exact ih (Memory.below_put h a b) (a + 1)

theorem Memory.read_store {m : Memory} (h : m.sorted) (total a : Nat) (bs : List Byte) (x : Nat) :
    (m.store total a bs).read x =
      if a ≤ x ∧ x < a + bs.length ∧ x < total then bs.getD (x - a) 0 else m.read x := by
  induction bs generalizing m a with
  | nil => simp [Memory.store]; intros; omega
  | cons b bs ih =>
    simp only [Memory.store, ih (Memory.sorted_put h total a b), Memory.read_put h, List.length_cons]
    by_cases hx : x = a
    · subst hx
      by_cases ht : x < total <;> simp [ht]
    · by_cases hr : a ≤ x ∧ x < a + (bs.length + 1) ∧ x < total
      · obtain ⟨k, rfl⟩ : ∃ k, x = a + 1 + k := ⟨x - (a + 1), by omega⟩
        rw [if_pos (by omega), if_pos hr, show a + 1 + k - (a + 1) = k by omega, show a + 1 + k - a = k + 1 by omega]
        simp
      · rw [if_neg (by omega), if_neg (by omega), if_neg hr]

theorem Memory.wf_storeCells {m : Memory} (h : m.wf) (total : Nat) (cs : List Host.Cell) :
    (m.storeCells total cs).wf := by
  unfold Memory.storeCells
  induction cs generalizing m with
  | nil => exact h
  | cons c cs ih => exact ih (Memory.wf_put h total c.1 c.2)

theorem Memory.below_storeCells {m : Memory} {total : Nat} (h : m.below total) (cs : List Host.Cell) :
    (m.storeCells total cs).below total := by
  unfold Memory.storeCells
  induction cs generalizing m with
  | nil => exact h
  | cons c cs ih => exact ih (Memory.below_put h c.1 c.2)

theorem Memory.wf_eraseRange {m : Memory} (h : m.wf) (a n : Nat) : (m.eraseRange a n).wf :=
  ⟨h.1.filter _, fun c hc => h.2 c (List.mem_of_mem_filter hc)⟩

theorem Memory.below_eraseRange {m : Memory} {total : Nat} (h : m.below total) (a n : Nat) :
    (m.eraseRange a n).below total := fun c hc => h c (List.mem_of_mem_filter hc)

/-- R60: an erased range reads as the erased pattern, and every other address as before. -/
theorem Memory.read_eraseRange (m : Memory) (a n x : Nat) :
    (m.eraseRange a n).read x = if a ≤ x ∧ x < a + n then erasedByte else m.read x := by
  unfold Memory.eraseRange
  induction m with
  | nil => simp [Memory.read]
  | cons c m ih =>
    obtain ⟨k, v⟩ := c
    by_cases hk : a ≤ k ∧ k < a + n
    · simp only [List.filter_cons, hk, decide_true, Bool.and_self, Bool.not_true, Bool.false_eq_true, if_false, ih,
        Memory.read]
      split
      · rfl
      · rw [if_neg]; rintro rfl; contradiction
    · have : (!(decide (a ≤ k) && decide (k < a + n))) = true := by
        simp only [Bool.not_eq_true', Bool.and_eq_false_iff, decide_eq_false_iff_not]; tauto
      simp only [List.filter_cons, this, if_true, Memory.read, ih]
      by_cases hx : k = x
      · subst hx; simp [hk]
      · simp [hx]

@[simp] theorem Memory.length_readRange (m : Memory) (a n : Nat) : (m.readRange a n).length = n := by
  simp [Memory.readRange]

theorem Memory.readRange_getElem (m : Memory) (a n i : Nat) (h : i < (m.readRange a n).length) :
    (m.readRange a n)[i] = m.read (a + i) := by simp [Memory.readRange]

/-- What completing an operation does to the array keeps its form (R60, R61, U7). -/
theorem InFlight.wf_complete {m : Memory} (h : m.wf) (total : Nat) (d : Drawn) (f : InFlight) :
    (f.complete total d m).wf := by
  cases f <;> simp only [InFlight.complete]
  · exact Memory.wf_store h _ _ _
  · exact Memory.wf_eraseRange h _ _
  · exact Memory.wf_store h _ _ _
  · exact Memory.wf_store h _ _ _
  · exact Memory.wf_storeCells h _ _

theorem InFlight.below_complete {m : Memory} {total : Nat} (h : m.below total) (d : Drawn) (f : InFlight) :
    (f.complete total d m).below total := by
  cases f <;> simp only [InFlight.complete]
  · exact Memory.below_store h _ _
  · exact Memory.below_eraseRange h _ _
  · exact Memory.below_store h _ _
  · exact Memory.below_store h _ _
  · exact Memory.below_storeCells h _

@[simp] theorem length_programmed (d : Drawn) (m : Memory) (da : Nat) (src : List Byte) :
    (programmed d m da src).length = src.length := by simp [programmed]

@[simp] theorem length_between (d : Drawn) (m : Memory) (da : Nat) (target : List Byte) :
    (between d m da target).length = target.length := by simp [between]

@[simp] theorem length_bytes (d : Drawn) (n : Nat) : (d.bytes n).length = n := by simp [Drawn.bytes]

end Sys2Proof.Machine
end

