-- ==== Sys2Proof/Laws/State.lean ====
section
/-! SUPPORT. One lemma per field and update of State, each true by rfl, so that no later proof unfolds a record
update. -/

namespace Sys2Proof.Machine

/-! ### The updates that leave the peripheral alone -/

@[simp] theorem draw_cfg (s : State) : s.draw.cfg = s.cfg := rfl
@[simp] theorem draw_opened (s : State) : s.draw.opened = s.opened := rfl
@[simp] theorem draw_fsm (s : State) : s.draw.fsm = s.fsm := rfl
@[simp] theorem draw_regs (s : State) : s.draw.regs = s.regs := rfl
@[simp] theorem draw_hr (s : State) : s.draw.hr = s.hr := rfl
@[simp] theorem draw_trace (s : State) : s.draw.trace = s.trace := rfl
@[simp] theorem draw_hc (s : State) : s.draw.hc = s.hc := rfl
@[simp] theorem draw_hb (s : State) : s.draw.hb = s.hb := rfl
@[simp] theorem draw_resets (s : State) : s.draw.resets = s.resets := rfl
@[simp] theorem draw_activeBank (s : State) : s.draw.activeBank = s.activeBank := rfl
@[simp] theorem draw_devError (s : State) : s.draw.devError = s.devError := rfl
@[simp] theorem draw_inFlight (s : State) : s.draw.inFlight = s.inFlight := rfl
@[simp] theorem draw_condition (s : State) : s.draw.condition = s.condition := rfl
@[simp] theorem draw_flash (s : State) : s.draw.flash = s.flash := rfl
@[simp] theorem draw_script (s : State) : s.draw.script = s.script.tail := rfl
@[simp] theorem draw_draws (s : State) : s.draw.draws = s.draws + 1 := rfl

@[simp] theorem log_cfg (p : Prim) (s : State) : (s.log p).cfg = s.cfg := rfl
@[simp] theorem log_opened (p : Prim) (s : State) : (s.log p).opened = s.opened := rfl
@[simp] theorem log_fsm (p : Prim) (s : State) : (s.log p).fsm = s.fsm := rfl
@[simp] theorem log_regs (p : Prim) (s : State) : (s.log p).regs = s.regs := rfl
@[simp] theorem log_hr (p : Prim) (s : State) : (s.log p).hr = s.hr := rfl
@[simp] theorem log_trace (p : Prim) (s : State) : (s.log p).trace = s.trace ++ [p] := rfl
@[simp] theorem log_hc (p : Prim) (s : State) : (s.log p).hc = s.hc := rfl
@[simp] theorem log_hb (p : Prim) (s : State) : (s.log p).hb = s.hb := rfl
@[simp] theorem log_resets (p : Prim) (s : State) : (s.log p).resets = s.resets := rfl
@[simp] theorem log_activeBank (p : Prim) (s : State) : (s.log p).activeBank = s.activeBank := rfl
@[simp] theorem log_devError (p : Prim) (s : State) : (s.log p).devError = s.devError := rfl
@[simp] theorem log_inFlight (p : Prim) (s : State) : (s.log p).inFlight = s.inFlight := rfl
@[simp] theorem log_condition (p : Prim) (s : State) : (s.log p).condition = s.condition := rfl
@[simp] theorem log_flash (p : Prim) (s : State) : (s.log p).flash = s.flash := rfl
@[simp] theorem log_script (p : Prim) (s : State) : (s.log p).script = s.script := rfl
@[simp] theorem log_draws (p : Prim) (s : State) : (s.log p).draws = s.draws := rfl

@[simp] theorem goto_cfg (f : Fsm) (s : State) : (s.goto f).cfg = s.cfg := rfl
@[simp] theorem goto_opened (f : Fsm) (s : State) : (s.goto f).opened = s.opened := rfl
@[simp] theorem goto_fsm (f : Fsm) (s : State) : (s.goto f).fsm = f := rfl
@[simp] theorem goto_regs (f : Fsm) (s : State) : (s.goto f).regs = s.regs := rfl
@[simp] theorem goto_hr (f : Fsm) (s : State) : (s.goto f).hr = s.hr := rfl
@[simp] theorem goto_trace (f : Fsm) (s : State) : (s.goto f).trace = s.trace := rfl
@[simp] theorem goto_hc (f : Fsm) (s : State) : (s.goto f).hc = s.hc := rfl
@[simp] theorem goto_hb (f : Fsm) (s : State) : (s.goto f).hb = s.hb := rfl
@[simp] theorem goto_resets (f : Fsm) (s : State) : (s.goto f).resets = s.resets := rfl
@[simp] theorem goto_activeBank (f : Fsm) (s : State) : (s.goto f).activeBank = s.activeBank := rfl
@[simp] theorem goto_devError (f : Fsm) (s : State) : (s.goto f).devError = s.devError := rfl
@[simp] theorem goto_inFlight (f : Fsm) (s : State) : (s.goto f).inFlight = s.inFlight := rfl
@[simp] theorem goto_condition (f : Fsm) (s : State) : (s.goto f).condition = s.condition := rfl
@[simp] theorem goto_flash (f : Fsm) (s : State) : (s.goto f).flash = s.flash := rfl
@[simp] theorem goto_script (f : Fsm) (s : State) : (s.goto f).script = s.script := rfl
@[simp] theorem goto_draws (f : Fsm) (s : State) : (s.goto f).draws = s.draws := rfl

@[simp] theorem raise_cfg (k : Kind) (n : Nat) (s : State) : (s.raise k n).cfg = s.cfg := rfl
@[simp] theorem raise_opened (k : Kind) (n : Nat) (s : State) : (s.raise k n).opened = s.opened := rfl
@[simp] theorem raise_fsm (k : Kind) (n : Nat) (s : State) : (s.raise k n).fsm = .resp := rfl
@[simp] theorem raise_regs (k : Kind) (n : Nat) (s : State) : (s.raise k n).regs = s.regs.latch k n := rfl
@[simp] theorem raise_hr (k : Kind) (n : Nat) (s : State) : (s.raise k n).hr = s.hr := rfl
@[simp] theorem raise_trace (k : Kind) (n : Nat) (s : State) : (s.raise k n).trace = s.trace := rfl
@[simp] theorem raise_hc (k : Kind) (n : Nat) (s : State) : (s.raise k n).hc = s.hc := rfl
@[simp] theorem raise_hb (k : Kind) (n : Nat) (s : State) : (s.raise k n).hb = s.hb := rfl
@[simp] theorem raise_resets (k : Kind) (n : Nat) (s : State) : (s.raise k n).resets = s.resets := rfl
@[simp] theorem raise_activeBank (k : Kind) (n : Nat) (s : State) : (s.raise k n).activeBank = s.activeBank := rfl
@[simp] theorem raise_devError (k : Kind) (n : Nat) (s : State) : (s.raise k n).devError = s.devError := rfl
@[simp] theorem raise_inFlight (k : Kind) (n : Nat) (s : State) : (s.raise k n).inFlight = s.inFlight := rfl
@[simp] theorem raise_condition (k : Kind) (n : Nat) (s : State) : (s.raise k n).condition = s.condition := rfl
@[simp] theorem raise_flash (k : Kind) (n : Nat) (s : State) : (s.raise k n).flash = s.flash := rfl
@[simp] theorem raise_script (k : Kind) (n : Nat) (s : State) : (s.raise k n).script = s.script := rfl
@[simp] theorem raise_draws (k : Kind) (n : Nat) (s : State) : (s.raise k n).draws = s.draws := rfl

@[simp] theorem respond_cfg (s : State) : s.respond.cfg = s.cfg := rfl
@[simp] theorem respond_opened (s : State) : s.respond.opened = s.opened := rfl
@[simp] theorem respond_fsm (s : State) : s.respond.fsm = .idle := rfl
@[simp] theorem respond_regs (s : State) : s.respond.regs = s.regs := rfl
@[simp] theorem respond_hr (s : State) : s.respond.hr = some s.response := rfl
@[simp] theorem respond_trace (s : State) : s.respond.trace = s.trace := rfl
@[simp] theorem respond_hc (s : State) : s.respond.hc = s.hc := rfl
@[simp] theorem respond_hb (s : State) : s.respond.hb = s.hb := rfl
@[simp] theorem respond_resets (s : State) : s.respond.resets = s.resets := rfl
@[simp] theorem respond_activeBank (s : State) : s.respond.activeBank = s.activeBank := rfl
@[simp] theorem respond_devError (s : State) : s.respond.devError = s.devError := rfl
@[simp] theorem respond_inFlight (s : State) : s.respond.inFlight = s.inFlight := rfl
@[simp] theorem respond_condition (s : State) : s.respond.condition = s.condition := rfl
@[simp] theorem respond_flash (s : State) : s.respond.flash = s.flash := rfl
@[simp] theorem respond_script (s : State) : s.respond.script = s.script := rfl
@[simp] theorem respond_draws (s : State) : s.respond.draws = s.draws := rfl

@[simp] theorem takeReset_cfg (s : State) : s.takeReset.cfg = s.cfg := rfl
@[simp] theorem takeReset_opened (s : State) : s.takeReset.opened = false := rfl
@[simp] theorem takeReset_fsm (s : State) : s.takeReset.fsm = .idle := rfl
@[simp] theorem takeReset_regs (s : State) : s.takeReset.regs = Regs.reset := rfl
@[simp] theorem takeReset_hr (s : State) : s.takeReset.hr = none := rfl
@[simp] theorem takeReset_trace (s : State) : s.takeReset.trace = s.trace := rfl
@[simp] theorem takeReset_hc (s : State) : s.takeReset.hc = s.hc := rfl
@[simp] theorem takeReset_hb (s : State) : s.takeReset.hb = s.hb := rfl
@[simp] theorem takeReset_resets (s : State) : s.takeReset.resets = s.resets.tail := rfl
@[simp] theorem takeReset_activeBank (s : State) : s.takeReset.activeBank = s.activeBank := rfl
@[simp] theorem takeReset_devError (s : State) : s.takeReset.devError = s.devError := rfl
@[simp] theorem takeReset_inFlight (s : State) : s.takeReset.inFlight = s.inFlight := rfl
@[simp] theorem takeReset_condition (s : State) : s.takeReset.condition = s.condition := rfl
@[simp] theorem takeReset_flash (s : State) : s.takeReset.flash = s.flash := rfl
@[simp] theorem takeReset_script (s : State) : s.takeReset.script = s.script := rfl
@[simp] theorem takeReset_draws (s : State) : s.takeReset.draws = s.draws := rfl

@[simp] theorem accept_cfg (r : Regs) (s : State) : (s.accept r).cfg = s.cfg := rfl
@[simp] theorem accept_opened (r : Regs) (s : State) : (s.accept r).opened = s.opened := rfl
@[simp] theorem accept_fsm (r : Regs) (s : State) : (s.accept r).fsm = .check := rfl
@[simp] theorem accept_regs (r : Regs) (s : State) : (s.accept r).regs = r := rfl
@[simp] theorem accept_hr (r : Regs) (s : State) : (s.accept r).hr = none := rfl
@[simp] theorem accept_trace (r : Regs) (s : State) : (s.accept r).trace = [] := rfl
@[simp] theorem accept_hc (r : Regs) (s : State) : (s.accept r).hc = s.hc := rfl
@[simp] theorem accept_hb (r : Regs) (s : State) : (s.accept r).hb = s.hb := rfl
@[simp] theorem accept_resets (r : Regs) (s : State) : (s.accept r).resets = s.resets := rfl
@[simp] theorem accept_activeBank (r : Regs) (s : State) : (s.accept r).activeBank = s.activeBank := rfl
@[simp] theorem accept_devError (r : Regs) (s : State) : (s.accept r).devError = s.devError := rfl
@[simp] theorem accept_inFlight (r : Regs) (s : State) : (s.accept r).inFlight = s.inFlight := rfl
@[simp] theorem accept_condition (r : Regs) (s : State) : (s.accept r).condition = s.condition := rfl
@[simp] theorem accept_flash (r : Regs) (s : State) : (s.accept r).flash = s.flash := rfl
@[simp] theorem accept_script (r : Regs) (s : State) : (s.accept r).script = s.script := rfl
@[simp] theorem accept_draws (r : Regs) (s : State) : (s.accept r).draws = s.draws := rfl

@[simp] theorem startPoll_cfg (s : State) : s.startPoll.cfg = s.cfg := rfl
@[simp] theorem startPoll_opened (s : State) : s.startPoll.opened = s.opened := rfl
@[simp] theorem startPoll_fsm (s : State) : s.startPoll.fsm = .poll := rfl
@[simp] theorem startPoll_regs (s : State) : s.startPoll.regs = { s.regs with pollCnt := s.cfg.pollLimit } := rfl
@[simp] theorem startPoll_hr (s : State) : s.startPoll.hr = s.hr := rfl
@[simp] theorem startPoll_trace (s : State) : s.startPoll.trace = s.trace := rfl
@[simp] theorem startPoll_hc (s : State) : s.startPoll.hc = s.hc := rfl
@[simp] theorem startPoll_hb (s : State) : s.startPoll.hb = s.hb := rfl
@[simp] theorem startPoll_resets (s : State) : s.startPoll.resets = s.resets := rfl
@[simp] theorem startPoll_activeBank (s : State) : s.startPoll.activeBank = s.activeBank := rfl
@[simp] theorem startPoll_devError (s : State) : s.startPoll.devError = s.devError := rfl
@[simp] theorem startPoll_inFlight (s : State) : s.startPoll.inFlight = s.inFlight := rfl
@[simp] theorem startPoll_condition (s : State) : s.startPoll.condition = s.condition := rfl
@[simp] theorem startPoll_flash (s : State) : s.startPoll.flash = s.flash := rfl
@[simp] theorem startPoll_script (s : State) : s.startPoll.script = s.script := rfl
@[simp] theorem startPoll_draws (s : State) : s.startPoll.draws = s.draws := rfl

@[simp] theorem nearer_nil : nearer [] = [] := rfl
@[simp] theorem nearer_zero (later : List Nat) : nearer (0 :: later) = 0 :: later := rfl
@[simp] theorem nearer_succ (k : Nat) (later : List Nat) : nearer ((k + 1) :: later) = k :: later := rfl

@[simp] theorem issue_cfg (r : Request) (rest : List Request) (s : State) : (s.issue r rest).cfg = s.cfg := rfl
@[simp] theorem issue_opened (r : Request) (rest : List Request) (s : State) : (s.issue r rest).opened = s.opened := rfl
@[simp] theorem issue_fsm (r : Request) (rest : List Request) (s : State) : (s.issue r rest).fsm = s.fsm := rfl
@[simp] theorem issue_regs (r : Request) (rest : List Request) (s : State) : (s.issue r rest).regs = s.regs := rfl
@[simp] theorem issue_hr (r : Request) (rest : List Request) (s : State) : (s.issue r rest).hr = s.hr := rfl
@[simp] theorem issue_trace (r : Request) (rest : List Request) (s : State) : (s.issue r rest).trace = s.trace := rfl
@[simp] theorem issue_hc (r : Request) (rest : List Request) (s : State) : (s.issue r rest).hc = rest := rfl
@[simp] theorem issue_hb (r : Request) (rest : List Request) (s : State) : (s.issue r rest).hb = r.buf.getD s.hb := rfl
@[simp] theorem issue_resets (r : Request) (rest : List Request) (s : State) : (s.issue r rest).resets = nearer s.resets := rfl
@[simp] theorem issue_activeBank (r : Request) (rest : List Request) (s : State) : (s.issue r rest).activeBank = s.activeBank := rfl
@[simp] theorem issue_devError (r : Request) (rest : List Request) (s : State) : (s.issue r rest).devError = s.devError := rfl
@[simp] theorem issue_inFlight (r : Request) (rest : List Request) (s : State) : (s.issue r rest).inFlight = s.inFlight := rfl
@[simp] theorem issue_condition (r : Request) (rest : List Request) (s : State) : (s.issue r rest).condition = s.condition := rfl
@[simp] theorem issue_flash (r : Request) (rest : List Request) (s : State) : (s.issue r rest).flash = s.flash := rfl
@[simp] theorem issue_script (r : Request) (rest : List Request) (s : State) : (s.issue r rest).script = s.script := rfl
@[simp] theorem issue_draws (r : Request) (rest : List Request) (s : State) : (s.issue r rest).draws = s.draws := rfl

@[simp] theorem answerValue_cfg (v : Nat) (s : State) : (s.answerValue v).cfg = s.cfg := rfl
@[simp] theorem answerValue_opened (v : Nat) (s : State) : (s.answerValue v).opened = s.opened := rfl
@[simp] theorem answerValue_fsm (v : Nat) (s : State) : (s.answerValue v).fsm = .resp := rfl
@[simp] theorem answerValue_regs (v : Nat) (s : State) : (s.answerValue v).regs = { s.regs with value := v } := rfl
@[simp] theorem answerValue_hr (v : Nat) (s : State) : (s.answerValue v).hr = s.hr := rfl
@[simp] theorem answerValue_trace (v : Nat) (s : State) : (s.answerValue v).trace = s.trace := rfl
@[simp] theorem answerValue_hc (v : Nat) (s : State) : (s.answerValue v).hc = s.hc := rfl
@[simp] theorem answerValue_hb (v : Nat) (s : State) : (s.answerValue v).hb = s.hb := rfl
@[simp] theorem answerValue_resets (v : Nat) (s : State) : (s.answerValue v).resets = s.resets := rfl
@[simp] theorem answerValue_activeBank (v : Nat) (s : State) : (s.answerValue v).activeBank = s.activeBank := rfl
@[simp] theorem answerValue_devError (v : Nat) (s : State) : (s.answerValue v).devError = s.devError := rfl
@[simp] theorem answerValue_inFlight (v : Nat) (s : State) : (s.answerValue v).inFlight = s.inFlight := rfl
@[simp] theorem answerValue_condition (v : Nat) (s : State) : (s.answerValue v).condition = s.condition := rfl
@[simp] theorem answerValue_flash (v : Nat) (s : State) : (s.answerValue v).flash = s.flash := rfl
@[simp] theorem answerValue_script (v : Nat) (s : State) : (s.answerValue v).script = s.script := rfl
@[simp] theorem answerValue_draws (v : Nat) (s : State) : (s.answerValue v).draws = s.draws := rfl

@[simp] theorem havoc_cfg (acc : Bool) (d : Drawn) (s : State) : (s.havoc acc d).cfg = s.cfg := rfl
@[simp] theorem havoc_opened (acc : Bool) (d : Drawn) (s : State) : (s.havoc acc d).opened = s.opened := rfl
@[simp] theorem havoc_fsm (acc : Bool) (d : Drawn) (s : State) : (s.havoc acc d).fsm = s.fsm := rfl
@[simp] theorem havoc_regs (acc : Bool) (d : Drawn) (s : State) : (s.havoc acc d).regs = s.regs := rfl
@[simp] theorem havoc_hr (acc : Bool) (d : Drawn) (s : State) : (s.havoc acc d).hr = s.hr := rfl
@[simp] theorem havoc_trace (acc : Bool) (d : Drawn) (s : State) : (s.havoc acc d).trace = s.trace := rfl
@[simp] theorem havoc_hc (acc : Bool) (d : Drawn) (s : State) : (s.havoc acc d).hc = s.hc := rfl
@[simp] theorem havoc_hb (acc : Bool) (d : Drawn) (s : State) : (s.havoc acc d).hb = s.hb := rfl
@[simp] theorem havoc_resets (acc : Bool) (d : Drawn) (s : State) : (s.havoc acc d).resets = s.resets := rfl
@[simp] theorem havoc_activeBank (acc : Bool) (d : Drawn) (s : State) : (s.havoc acc d).activeBank = d.bank s.cfg := rfl
@[simp] theorem havoc_devError (acc : Bool) (d : Drawn) (s : State) : (s.havoc acc d).devError = s.devError := rfl
@[simp] theorem havoc_inFlight (acc : Bool) (d : Drawn) (s : State) : (s.havoc acc d).inFlight =
    if (s.busy || acc) && d.ans.busy then some .unknown else none := rfl
@[simp] theorem havoc_condition (acc : Bool) (d : Drawn) (s : State) : (s.havoc acc d).condition = s.condition := rfl
@[simp] theorem havoc_flash (acc : Bool) (d : Drawn) (s : State) : (s.havoc acc d).flash = s.flash.storeCells s.cfg.totalSize d.ans.wild := rfl
@[simp] theorem havoc_script (acc : Bool) (d : Drawn) (s : State) : (s.havoc acc d).script = s.script := rfl
@[simp] theorem havoc_draws (acc : Bool) (d : Drawn) (s : State) : (s.havoc acc d).draws = s.draws := rfl

@[simp] theorem rejectEncoding_cfg (s : State) : s.rejectEncoding.cfg = s.cfg := rfl
@[simp] theorem rejectEncoding_opened (s : State) : s.rejectEncoding.opened = s.opened := rfl
@[simp] theorem rejectEncoding_fsm (s : State) : s.rejectEncoding.fsm = .resp := rfl
@[simp] theorem rejectEncoding_regs (s : State) : s.rejectEncoding.regs = s.regs.clearLatch.latch .invalidArgument 0 := rfl
@[simp] theorem rejectEncoding_hr (s : State) : s.rejectEncoding.hr = s.hr := rfl
@[simp] theorem rejectEncoding_trace (s : State) : s.rejectEncoding.trace = s.trace := rfl
@[simp] theorem rejectEncoding_hc (s : State) : s.rejectEncoding.hc = s.hc := rfl
@[simp] theorem rejectEncoding_hb (s : State) : s.rejectEncoding.hb = s.hb := rfl
@[simp] theorem rejectEncoding_resets (s : State) : s.rejectEncoding.resets = s.resets := rfl
@[simp] theorem rejectEncoding_activeBank (s : State) : s.rejectEncoding.activeBank = s.activeBank := rfl
@[simp] theorem rejectEncoding_devError (s : State) : s.rejectEncoding.devError = s.devError := rfl
@[simp] theorem rejectEncoding_inFlight (s : State) : s.rejectEncoding.inFlight = s.inFlight := rfl
@[simp] theorem rejectEncoding_condition (s : State) : s.rejectEncoding.condition = s.condition := rfl
@[simp] theorem rejectEncoding_flash (s : State) : s.rejectEncoding.flash = s.flash := rfl
@[simp] theorem rejectEncoding_script (s : State) : s.rejectEncoding.script = s.script := rfl
@[simp] theorem rejectEncoding_draws (s : State) : s.rejectEncoding.draws = s.draws := rfl

end Sys2Proof.Machine
end

