-- ==== Sys2Proof/Laws/Ops.lean ====
section
/-! SUPPORT. What each shared operation and each primitive call leaves alone, and what the device's own moves do. -/

namespace Sys2Proof.Machine

/-! ### `settle` and `called` change only the flash array, `inFlight` and the oracle's position -/

@[simp] theorem settle_cfg (d : Drawn) (s : State) : (s.settle d).cfg = s.cfg := by
  unfold State.settle; (repeat' split) <;> rfl
@[simp] theorem settle_opened (d : Drawn) (s : State) : (s.settle d).opened = s.opened := by
  unfold State.settle; (repeat' split) <;> rfl
@[simp] theorem settle_fsm (d : Drawn) (s : State) : (s.settle d).fsm = s.fsm := by
  unfold State.settle; (repeat' split) <;> rfl
@[simp] theorem settle_regs (d : Drawn) (s : State) : (s.settle d).regs = s.regs := by
  unfold State.settle; (repeat' split) <;> rfl
@[simp] theorem settle_hr (d : Drawn) (s : State) : (s.settle d).hr = s.hr := by
  unfold State.settle; (repeat' split) <;> rfl
@[simp] theorem settle_hc (d : Drawn) (s : State) : (s.settle d).hc = s.hc := by
  unfold State.settle; (repeat' split) <;> rfl
@[simp] theorem settle_hb (d : Drawn) (s : State) : (s.settle d).hb = s.hb := by
  unfold State.settle; (repeat' split) <;> rfl
@[simp] theorem settle_resets (d : Drawn) (s : State) : (s.settle d).resets = s.resets := by
  unfold State.settle; (repeat' split) <;> rfl
@[simp] theorem settle_trace (d : Drawn) (s : State) : (s.settle d).trace = s.trace := by
  unfold State.settle; (repeat' split) <;> rfl
@[simp] theorem settle_devError (d : Drawn) (s : State) : (s.settle d).devError = s.devError := by
  unfold State.settle; (repeat' split) <;> rfl
@[simp] theorem settle_activeBank (d : Drawn) (s : State) : (s.settle d).activeBank = s.activeBank := by
  unfold State.settle; (repeat' split) <;> rfl
@[simp] theorem settle_condition (d : Drawn) (s : State) : (s.settle d).condition = s.condition := by
  unfold State.settle; (repeat' split) <;> rfl
@[simp] theorem settle_script (d : Drawn) (s : State) : (s.settle d).script = s.script := by
  unfold State.settle; (repeat' split) <;> rfl
@[simp] theorem settle_draws (d : Drawn) (s : State) : (s.settle d).draws = s.draws := by
  unfold State.settle; (repeat' split) <;> rfl

@[simp] theorem called_cfg (s : State) : s.called.cfg = s.cfg := by
  simp [State.called]
@[simp] theorem called_opened (s : State) : s.called.opened = s.opened := by
  simp [State.called]
@[simp] theorem called_fsm (s : State) : s.called.fsm = s.fsm := by
  simp [State.called]
@[simp] theorem called_regs (s : State) : s.called.regs = s.regs := by
  simp [State.called]
@[simp] theorem called_hr (s : State) : s.called.hr = s.hr := by
  simp [State.called]
@[simp] theorem called_hc (s : State) : s.called.hc = s.hc := by
  simp [State.called]
@[simp] theorem called_hb (s : State) : s.called.hb = s.hb := by
  simp [State.called]
@[simp] theorem called_resets (s : State) : s.called.resets = s.resets := by
  simp [State.called]
@[simp] theorem called_trace (s : State) : s.called.trace = s.trace := by
  simp [State.called]
@[simp] theorem called_devError (s : State) : s.called.devError = s.devError := by
  simp [State.called]
@[simp] theorem called_activeBank (s : State) : s.called.activeBank = s.activeBank := by
  simp [State.called]
@[simp] theorem called_condition (s : State) : s.called.condition = s.condition := by
  simp [State.called]
@[simp] theorem called_script (s : State) : s.called.script = s.script.tail := by
  simp [State.called]
@[simp] theorem called_draws (s : State) : s.called.draws = s.draws + 1 := by
  simp [State.called]

/-! ### Failed operations leave the block alone -/

@[simp] theorem spoil_cfg (busy : Bool) (d : Drawn) (da n : Nat) (s : State) : (s.spoil busy d da n).cfg = s.cfg := rfl
@[simp] theorem spoil_opened (busy : Bool) (d : Drawn) (da n : Nat) (s : State) : (s.spoil busy d da n).opened = s.opened := rfl
@[simp] theorem spoil_fsm (busy : Bool) (d : Drawn) (da n : Nat) (s : State) : (s.spoil busy d da n).fsm = s.fsm := rfl
@[simp] theorem spoil_regs (busy : Bool) (d : Drawn) (da n : Nat) (s : State) : (s.spoil busy d da n).regs = s.regs := rfl
@[simp] theorem spoil_hr (busy : Bool) (d : Drawn) (da n : Nat) (s : State) : (s.spoil busy d da n).hr = s.hr := rfl
@[simp] theorem spoil_hc (busy : Bool) (d : Drawn) (da n : Nat) (s : State) : (s.spoil busy d da n).hc = s.hc := rfl
@[simp] theorem spoil_hb (busy : Bool) (d : Drawn) (da n : Nat) (s : State) : (s.spoil busy d da n).hb = s.hb := rfl
@[simp] theorem spoil_resets (busy : Bool) (d : Drawn) (da n : Nat) (s : State) : (s.spoil busy d da n).resets = s.resets := rfl
@[simp] theorem spoil_trace (busy : Bool) (d : Drawn) (da n : Nat) (s : State) : (s.spoil busy d da n).trace = s.trace := rfl
@[simp] theorem spoil_devError (busy : Bool) (d : Drawn) (da n : Nat) (s : State) : (s.spoil busy d da n).devError = s.devError := rfl
@[simp] theorem spoil_condition (busy : Bool) (d : Drawn) (da n : Nat) (s : State) : (s.spoil busy d da n).condition = s.condition := rfl
@[simp] theorem spoil_script (busy : Bool) (d : Drawn) (da n : Nat) (s : State) : (s.spoil busy d da n).script = s.script := rfl
@[simp] theorem spoil_draws (busy : Bool) (d : Drawn) (da n : Nat) (s : State) : (s.spoil busy d da n).draws = s.draws := rfl
@[simp] theorem spoil_activeBank (busy : Bool) (d : Drawn) (da n : Nat) (s : State) : (s.spoil busy d da n).activeBank = s.activeBank := rfl
@[simp] theorem spoil_flash (busy : Bool) (d : Drawn) (da n : Nat) (s : State) : (s.spoil busy d da n).flash = s.flash.store s.cfg.totalSize da (d.bytes n) := rfl
@[simp] theorem spoil_busy (busy : Bool) (d : Drawn) (da n : Nat) (s : State) : (s.spoil busy d da n).busy = busy := by
  cases busy <;> rfl

@[simp] theorem late_cfg (d : Drawn) (s : State) : (s.late d).cfg = s.cfg := by
  unfold State.late; split <;> rfl
@[simp] theorem late_opened (d : Drawn) (s : State) : (s.late d).opened = s.opened := by
  unfold State.late; split <;> rfl
@[simp] theorem late_fsm (d : Drawn) (s : State) : (s.late d).fsm = s.fsm := by
  unfold State.late; split <;> rfl
@[simp] theorem late_regs (d : Drawn) (s : State) : (s.late d).regs = s.regs := by
  unfold State.late; split <;> rfl
@[simp] theorem late_hr (d : Drawn) (s : State) : (s.late d).hr = s.hr := by
  unfold State.late; split <;> rfl
@[simp] theorem late_hc (d : Drawn) (s : State) : (s.late d).hc = s.hc := by
  unfold State.late; split <;> rfl
@[simp] theorem late_hb (d : Drawn) (s : State) : (s.late d).hb = s.hb := by
  unfold State.late; split <;> rfl
@[simp] theorem late_resets (d : Drawn) (s : State) : (s.late d).resets = s.resets := by
  unfold State.late; split <;> rfl
@[simp] theorem late_trace (d : Drawn) (s : State) : (s.late d).trace = s.trace := by
  unfold State.late; split <;> rfl
@[simp] theorem late_devError (d : Drawn) (s : State) : (s.late d).devError = s.devError := by
  unfold State.late; split <;> rfl
@[simp] theorem late_activeBank (d : Drawn) (s : State) : (s.late d).activeBank = s.activeBank := by
  unfold State.late; split <;> rfl
@[simp] theorem late_condition (d : Drawn) (s : State) : (s.late d).condition = s.condition := by
  unfold State.late; split <;> rfl
@[simp] theorem late_script (d : Drawn) (s : State) : (s.late d).script = s.script := by
  unfold State.late; split <;> rfl
@[simp] theorem late_draws (d : Drawn) (s : State) : (s.late d).draws = s.draws := by
  unfold State.late; split <;> rfl

@[simp] theorem reconfigure_cfg (d : Drawn) (s : State) : (s.reconfigure d).cfg = s.cfg := by
  unfold State.reconfigure; split <;> simp
@[simp] theorem reconfigure_opened (d : Drawn) (s : State) : (s.reconfigure d).opened = s.opened := by
  unfold State.reconfigure; split <;> simp
@[simp] theorem reconfigure_fsm (d : Drawn) (s : State) : (s.reconfigure d).fsm = s.fsm := by
  unfold State.reconfigure; split <;> simp
@[simp] theorem reconfigure_regs (d : Drawn) (s : State) : (s.reconfigure d).regs = s.regs := by
  unfold State.reconfigure; split <;> simp
@[simp] theorem reconfigure_hr (d : Drawn) (s : State) : (s.reconfigure d).hr = s.hr := by
  unfold State.reconfigure; split <;> simp
@[simp] theorem reconfigure_hc (d : Drawn) (s : State) : (s.reconfigure d).hc = s.hc := by
  unfold State.reconfigure; split <;> simp
@[simp] theorem reconfigure_hb (d : Drawn) (s : State) : (s.reconfigure d).hb = s.hb := by
  unfold State.reconfigure; split <;> simp
@[simp] theorem reconfigure_resets (d : Drawn) (s : State) : (s.reconfigure d).resets = s.resets := by
  unfold State.reconfigure; split <;> simp
@[simp] theorem reconfigure_trace (d : Drawn) (s : State) : (s.reconfigure d).trace = s.trace := by
  unfold State.reconfigure; split <;> simp
@[simp] theorem reconfigure_devError (d : Drawn) (s : State) : (s.reconfigure d).devError = s.devError := by
  unfold State.reconfigure; split <;> simp
@[simp] theorem reconfigure_condition (d : Drawn) (s : State) : (s.reconfigure d).condition = s.condition := by
  unfold State.reconfigure; split <;> simp
@[simp] theorem reconfigure_script (d : Drawn) (s : State) : (s.reconfigure d).script = s.script := by
  unfold State.reconfigure; split <;> simp
@[simp] theorem reconfigure_draws (d : Drawn) (s : State) : (s.reconfigure d).draws = s.draws := by
  unfold State.reconfigure; split <;> simp

/-! ### A primitive call leaves the block alone, grows the trace by its entry, and draws one answer -/

@[simp] theorem statusGet_cfg (s : State) : s.statusGet.cfg = s.cfg := by
  simp [State.statusGet]
@[simp] theorem statusGet_opened (s : State) : s.statusGet.opened = s.opened := by
  simp [State.statusGet]
@[simp] theorem statusGet_fsm (s : State) : s.statusGet.fsm = s.fsm := by
  simp [State.statusGet]
@[simp] theorem statusGet_regs (s : State) : s.statusGet.regs = s.regs := by
  simp [State.statusGet]
@[simp] theorem statusGet_hr (s : State) : s.statusGet.hr = s.hr := by
  simp [State.statusGet]
@[simp] theorem statusGet_hc (s : State) : s.statusGet.hc = s.hc := by
  simp [State.statusGet]
@[simp] theorem statusGet_hb (s : State) : s.statusGet.hb = s.hb := by
  simp [State.statusGet]
@[simp] theorem statusGet_resets (s : State) : s.statusGet.resets = s.resets := by
  simp [State.statusGet]
@[simp] theorem statusGet_condition (s : State) : s.statusGet.condition = s.condition := by
  simp [State.statusGet]
@[simp] theorem statusGet_activeBank (s : State) : s.statusGet.activeBank = s.activeBank := by
  simp [State.statusGet]

@[simp] theorem statusGet_trace (s : State) : s.statusGet.trace = s.trace ++ [.statusGet s.nextStatus s.sampleBusy] := by
  simp [State.statusGet]
@[simp] theorem statusGet_script (s : State) : s.statusGet.script = s.script.tail := by
  simp [State.statusGet]
@[simp] theorem statusGet_draws (s : State) : s.statusGet.draws = s.draws + 1 := by
  simp [State.statusGet]

@[simp] theorem bankSelect_cfg (b : Nat) (s : State) : (s.bankSelect b).cfg = s.cfg := by
  simp only [State.bankSelect]; (repeat' split) <;> simp
@[simp] theorem bankSelect_opened (b : Nat) (s : State) : (s.bankSelect b).opened = s.opened := by
  simp only [State.bankSelect]; (repeat' split) <;> simp
@[simp] theorem bankSelect_fsm (b : Nat) (s : State) : (s.bankSelect b).fsm = s.fsm := by
  simp only [State.bankSelect]; (repeat' split) <;> simp
@[simp] theorem bankSelect_regs (b : Nat) (s : State) : (s.bankSelect b).regs = s.regs := by
  simp only [State.bankSelect]; (repeat' split) <;> simp
@[simp] theorem bankSelect_hr (b : Nat) (s : State) : (s.bankSelect b).hr = s.hr := by
  simp only [State.bankSelect]; (repeat' split) <;> simp
@[simp] theorem bankSelect_hc (b : Nat) (s : State) : (s.bankSelect b).hc = s.hc := by
  simp only [State.bankSelect]; (repeat' split) <;> simp
@[simp] theorem bankSelect_hb (b : Nat) (s : State) : (s.bankSelect b).hb = s.hb := by
  simp only [State.bankSelect]; (repeat' split) <;> simp
@[simp] theorem bankSelect_resets (b : Nat) (s : State) : (s.bankSelect b).resets = s.resets := by
  simp only [State.bankSelect]; (repeat' split) <;> simp
@[simp] theorem bankSelect_condition (b : Nat) (s : State) : (s.bankSelect b).condition = s.condition := by
  simp only [State.bankSelect]; (repeat' split) <;> simp
@[simp] theorem bankSelect_devError (b : Nat) (s : State) : (s.bankSelect b).devError = s.devError := by
  simp only [State.bankSelect]; (repeat' split) <;> simp

@[simp] theorem bankSelect_trace (b : Nat) (s : State) : (s.bankSelect b).trace = s.trace ++ [.bankSelect b s.nextStatus] := by
  simp only [State.bankSelect]; (repeat' split) <;> simp
@[simp] theorem bankSelect_script (b : Nat) (s : State) : (s.bankSelect b).script = s.script.tail := by
  simp only [State.bankSelect]; (repeat' split) <;> simp
@[simp] theorem bankSelect_draws (b : Nat) (s : State) : (s.bankSelect b).draws = s.draws + 1 := by
  simp only [State.bankSelect]; (repeat' split) <;> simp

@[simp] theorem program_cfg (src : List Byte) (pa n : Nat) (s : State) : (s.program src pa n).cfg = s.cfg := by
  simp only [State.program]; (repeat' split) <;> simp
@[simp] theorem program_opened (src : List Byte) (pa n : Nat) (s : State) : (s.program src pa n).opened = s.opened := by
  simp only [State.program]; (repeat' split) <;> simp
@[simp] theorem program_fsm (src : List Byte) (pa n : Nat) (s : State) : (s.program src pa n).fsm = s.fsm := by
  simp only [State.program]; (repeat' split) <;> simp
@[simp] theorem program_regs (src : List Byte) (pa n : Nat) (s : State) : (s.program src pa n).regs = s.regs := by
  simp only [State.program]; (repeat' split) <;> simp
@[simp] theorem program_hr (src : List Byte) (pa n : Nat) (s : State) : (s.program src pa n).hr = s.hr := by
  simp only [State.program]; (repeat' split) <;> simp
@[simp] theorem program_hc (src : List Byte) (pa n : Nat) (s : State) : (s.program src pa n).hc = s.hc := by
  simp only [State.program]; (repeat' split) <;> simp
@[simp] theorem program_hb (src : List Byte) (pa n : Nat) (s : State) : (s.program src pa n).hb = s.hb := by
  simp only [State.program]; (repeat' split) <;> simp
@[simp] theorem program_resets (src : List Byte) (pa n : Nat) (s : State) : (s.program src pa n).resets = s.resets := by
  simp only [State.program]; (repeat' split) <;> simp
@[simp] theorem program_condition (src : List Byte) (pa n : Nat) (s : State) : (s.program src pa n).condition = s.condition := by
  simp only [State.program]; (repeat' split) <;> simp
@[simp] theorem program_devError (src : List Byte) (pa n : Nat) (s : State) : (s.program src pa n).devError = s.devError := by
  simp only [State.program]; (repeat' split) <;> simp

@[simp] theorem program_trace (src : List Byte) (pa n : Nat) (s : State) : (s.program src pa n).trace = s.trace ++ [.program src pa n s.nextStatus] := by
  simp only [State.program]; (repeat' split) <;> simp
@[simp] theorem program_script (src : List Byte) (pa n : Nat) (s : State) : (s.program src pa n).script = s.script.tail := by
  simp only [State.program]; (repeat' split) <;> simp
@[simp] theorem program_draws (src : List Byte) (pa n : Nat) (s : State) : (s.program src pa n).draws = s.draws + 1 := by
  simp only [State.program]; (repeat' split) <;> simp

@[simp] theorem eraseBlock_cfg (pa n : Nat) (s : State) : (s.eraseBlock pa n).cfg = s.cfg := by
  simp only [State.eraseBlock]; (repeat' split) <;> simp
@[simp] theorem eraseBlock_opened (pa n : Nat) (s : State) : (s.eraseBlock pa n).opened = s.opened := by
  simp only [State.eraseBlock]; (repeat' split) <;> simp
@[simp] theorem eraseBlock_fsm (pa n : Nat) (s : State) : (s.eraseBlock pa n).fsm = s.fsm := by
  simp only [State.eraseBlock]; (repeat' split) <;> simp
@[simp] theorem eraseBlock_regs (pa n : Nat) (s : State) : (s.eraseBlock pa n).regs = s.regs := by
  simp only [State.eraseBlock]; (repeat' split) <;> simp
@[simp] theorem eraseBlock_hr (pa n : Nat) (s : State) : (s.eraseBlock pa n).hr = s.hr := by
  simp only [State.eraseBlock]; (repeat' split) <;> simp
@[simp] theorem eraseBlock_hc (pa n : Nat) (s : State) : (s.eraseBlock pa n).hc = s.hc := by
  simp only [State.eraseBlock]; (repeat' split) <;> simp
@[simp] theorem eraseBlock_hb (pa n : Nat) (s : State) : (s.eraseBlock pa n).hb = s.hb := by
  simp only [State.eraseBlock]; (repeat' split) <;> simp
@[simp] theorem eraseBlock_resets (pa n : Nat) (s : State) : (s.eraseBlock pa n).resets = s.resets := by
  simp only [State.eraseBlock]; (repeat' split) <;> simp
@[simp] theorem eraseBlock_condition (pa n : Nat) (s : State) : (s.eraseBlock pa n).condition = s.condition := by
  simp only [State.eraseBlock]; (repeat' split) <;> simp
@[simp] theorem eraseBlock_devError (pa n : Nat) (s : State) : (s.eraseBlock pa n).devError = s.devError := by
  simp only [State.eraseBlock]; (repeat' split) <;> simp

@[simp] theorem eraseBlock_trace (pa n : Nat) (s : State) : (s.eraseBlock pa n).trace = s.trace ++ [.eraseBlock pa n s.nextStatus] := by
  simp only [State.eraseBlock]; (repeat' split) <;> simp
@[simp] theorem eraseBlock_script (pa n : Nat) (s : State) : (s.eraseBlock pa n).script = s.script.tail := by
  simp only [State.eraseBlock]; (repeat' split) <;> simp
@[simp] theorem eraseBlock_draws (pa n : Nat) (s : State) : (s.eraseBlock pa n).draws = s.draws + 1 := by
  simp only [State.eraseBlock]; (repeat' split) <;> simp

@[simp] theorem memRead_cfg (pa n : Nat) (s : State) : (s.memRead pa n).cfg = s.cfg := by
  simp only [State.memRead]; split <;> simp
@[simp] theorem memRead_opened (pa n : Nat) (s : State) : (s.memRead pa n).opened = s.opened := by
  simp only [State.memRead]; split <;> simp
@[simp] theorem memRead_fsm (pa n : Nat) (s : State) : (s.memRead pa n).fsm = s.fsm := by
  simp only [State.memRead]; split <;> simp
@[simp] theorem memRead_regs (pa n : Nat) (s : State) : (s.memRead pa n).regs = s.regs := by
  simp only [State.memRead]; split <;> simp
@[simp] theorem memRead_hr (pa n : Nat) (s : State) : (s.memRead pa n).hr = s.hr := by
  simp only [State.memRead]; split <;> simp
@[simp] theorem memRead_hc (pa n : Nat) (s : State) : (s.memRead pa n).hc = s.hc := by
  simp only [State.memRead]; split <;> simp
@[simp] theorem memRead_hb (pa n : Nat) (s : State) : (s.memRead pa n).hb = s.hb := by
  simp only [State.memRead]; split <;> simp
@[simp] theorem memRead_resets (pa n : Nat) (s : State) : (s.memRead pa n).resets = s.resets := by
  simp only [State.memRead]; split <;> simp
@[simp] theorem memRead_condition (pa n : Nat) (s : State) : (s.memRead pa n).condition = s.condition := by
  simp only [State.memRead]; split <;> simp
@[simp] theorem memRead_devError (pa n : Nat) (s : State) : (s.memRead pa n).devError = s.devError := by
  simp only [State.memRead]; split <;> simp

@[simp] theorem memRead_trace (pa n : Nat) (s : State) : (s.memRead pa n).trace = s.trace ++ [.memRead pa n (s.windowBytes pa n)] := by
  simp only [State.memRead]; split <;> simp
@[simp] theorem memRead_script (pa n : Nat) (s : State) : (s.memRead pa n).script = s.script.tail := by
  simp only [State.memRead]; split <;> simp
@[simp] theorem memRead_draws (pa n : Nat) (s : State) : (s.memRead pa n).draws = s.draws + 1 := by
  simp only [State.memRead]; split <;> simp

@[simp] theorem peripheralOpen_cfg (s : State) : s.peripheralOpen.cfg = s.cfg := by
  simp [State.peripheralOpen]
@[simp] theorem peripheralOpen_opened (s : State) : s.peripheralOpen.opened = s.opened := by
  simp [State.peripheralOpen]
@[simp] theorem peripheralOpen_fsm (s : State) : s.peripheralOpen.fsm = s.fsm := by
  simp [State.peripheralOpen]
@[simp] theorem peripheralOpen_regs (s : State) : s.peripheralOpen.regs = s.regs := by
  simp [State.peripheralOpen]
@[simp] theorem peripheralOpen_hr (s : State) : s.peripheralOpen.hr = s.hr := by
  simp [State.peripheralOpen]
@[simp] theorem peripheralOpen_hc (s : State) : s.peripheralOpen.hc = s.hc := by
  simp [State.peripheralOpen]
@[simp] theorem peripheralOpen_hb (s : State) : s.peripheralOpen.hb = s.hb := by
  simp [State.peripheralOpen]
@[simp] theorem peripheralOpen_resets (s : State) : s.peripheralOpen.resets = s.resets := by
  simp [State.peripheralOpen]
@[simp] theorem peripheralOpen_devError (s : State) : s.peripheralOpen.devError = s.devError := by
  simp [State.peripheralOpen]

@[simp] theorem peripheralOpen_trace (s : State) : s.peripheralOpen.trace = s.trace ++ [.peripheralOpen s.cfg.periphConfig s.nextStatus] := by
  simp [State.peripheralOpen]
@[simp] theorem peripheralOpen_script (s : State) : s.peripheralOpen.script = s.script.tail := by
  simp [State.peripheralOpen]
@[simp] theorem peripheralOpen_draws (s : State) : s.peripheralOpen.draws = s.draws + 1 := by
  simp [State.peripheralOpen]

@[simp] theorem directWrite_cfg (bytes : List Byte) (keep : Bool) (s : State) : (s.directWrite bytes keep).cfg = s.cfg := by
  simp [State.directWrite]
@[simp] theorem directWrite_opened (bytes : List Byte) (keep : Bool) (s : State) : (s.directWrite bytes keep).opened = s.opened := by
  simp [State.directWrite]
@[simp] theorem directWrite_fsm (bytes : List Byte) (keep : Bool) (s : State) : (s.directWrite bytes keep).fsm = s.fsm := by
  simp [State.directWrite]
@[simp] theorem directWrite_regs (bytes : List Byte) (keep : Bool) (s : State) : (s.directWrite bytes keep).regs = s.regs := by
  simp [State.directWrite]
@[simp] theorem directWrite_hr (bytes : List Byte) (keep : Bool) (s : State) : (s.directWrite bytes keep).hr = s.hr := by
  simp [State.directWrite]
@[simp] theorem directWrite_hc (bytes : List Byte) (keep : Bool) (s : State) : (s.directWrite bytes keep).hc = s.hc := by
  simp [State.directWrite]
@[simp] theorem directWrite_hb (bytes : List Byte) (keep : Bool) (s : State) : (s.directWrite bytes keep).hb = s.hb := by
  simp [State.directWrite]
@[simp] theorem directWrite_resets (bytes : List Byte) (keep : Bool) (s : State) : (s.directWrite bytes keep).resets = s.resets := by
  simp [State.directWrite]
@[simp] theorem directWrite_devError (bytes : List Byte) (keep : Bool) (s : State) : (s.directWrite bytes keep).devError = s.devError := by
  simp [State.directWrite]

@[simp] theorem directWrite_trace (bytes : List Byte) (keep : Bool) (s : State) : (s.directWrite bytes keep).trace = s.trace ++ [.directWrite bytes bytes.length keep s.nextStatus] := by
  simp [State.directWrite]
@[simp] theorem directWrite_script (bytes : List Byte) (keep : Bool) (s : State) : (s.directWrite bytes keep).script = s.script.tail := by
  simp [State.directWrite]
@[simp] theorem directWrite_draws (bytes : List Byte) (keep : Bool) (s : State) : (s.directWrite bytes keep).draws = s.draws + 1 := by
  simp [State.directWrite]

@[simp] theorem directRead_cfg (n : Nat) (s : State) : (s.directRead n).cfg = s.cfg := by
  simp [State.directRead]
@[simp] theorem directRead_opened (n : Nat) (s : State) : (s.directRead n).opened = s.opened := by
  simp [State.directRead]
@[simp] theorem directRead_fsm (n : Nat) (s : State) : (s.directRead n).fsm = s.fsm := by
  simp [State.directRead]
@[simp] theorem directRead_regs (n : Nat) (s : State) : (s.directRead n).regs = s.regs := by
  simp [State.directRead]
@[simp] theorem directRead_hr (n : Nat) (s : State) : (s.directRead n).hr = s.hr := by
  simp [State.directRead]
@[simp] theorem directRead_hc (n : Nat) (s : State) : (s.directRead n).hc = s.hc := by
  simp [State.directRead]
@[simp] theorem directRead_hb (n : Nat) (s : State) : (s.directRead n).hb = s.hb := by
  simp [State.directRead]
@[simp] theorem directRead_resets (n : Nat) (s : State) : (s.directRead n).resets = s.resets := by
  simp [State.directRead]
@[simp] theorem directRead_devError (n : Nat) (s : State) : (s.directRead n).devError = s.devError := by
  simp [State.directRead]

@[simp] theorem directRead_trace (n : Nat) (s : State) : (s.directRead n).trace = s.trace ++ [.directRead n s.nextStatus (s.directReadBytes n)] := by
  simp [State.directRead]
@[simp] theorem directRead_script (n : Nat) (s : State) : (s.directRead n).script = s.script.tail := by
  simp [State.directRead]
@[simp] theorem directRead_draws (n : Nat) (s : State) : (s.directRead n).draws = s.draws + 1 := by
  simp [State.directRead]

@[simp] theorem peripheralClose_cfg (s : State) : s.peripheralClose.cfg = s.cfg := by
  simp [State.peripheralClose]
@[simp] theorem peripheralClose_opened (s : State) : s.peripheralClose.opened = s.opened := by
  simp [State.peripheralClose]
@[simp] theorem peripheralClose_fsm (s : State) : s.peripheralClose.fsm = s.fsm := by
  simp [State.peripheralClose]
@[simp] theorem peripheralClose_regs (s : State) : s.peripheralClose.regs = s.regs := by
  simp [State.peripheralClose]
@[simp] theorem peripheralClose_hr (s : State) : s.peripheralClose.hr = s.hr := by
  simp [State.peripheralClose]
@[simp] theorem peripheralClose_hc (s : State) : s.peripheralClose.hc = s.hc := by
  simp [State.peripheralClose]
@[simp] theorem peripheralClose_hb (s : State) : s.peripheralClose.hb = s.hb := by
  simp [State.peripheralClose]
@[simp] theorem peripheralClose_resets (s : State) : s.peripheralClose.resets = s.resets := by
  simp [State.peripheralClose]
@[simp] theorem peripheralClose_devError (s : State) : s.peripheralClose.devError = s.devError := by
  simp [State.peripheralClose]

@[simp] theorem peripheralClose_trace (s : State) : s.peripheralClose.trace = s.trace ++ [.peripheralClose s.nextStatus] := by
  simp [State.peripheralClose]
@[simp] theorem peripheralClose_script (s : State) : s.peripheralClose.script = s.script.tail := by
  simp [State.peripheralClose]
@[simp] theorem peripheralClose_draws (s : State) : s.peripheralClose.draws = s.draws + 1 := by
  simp [State.peripheralClose]

/-! ### The oracle's position -/

/-- A state whose oracle stands one call further sees the answers from the second on. -/
theorem answer_of_draws {s t : State} (hs : t.script = s.script.tail) (hd : t.draws = s.draws + 1) (k : Nat) :
    t.answer k = s.answer (k + 1) := by
  simp [State.answer, hs, hd, Nat.add_comm, Nat.add_left_comm]

@[simp] theorem called_answer (s : State) (k : Nat) : s.called.answer k = s.answer (k + 1) :=
  answer_of_draws (by simp) (by simp) k

/-! ### The device -/

theorem called_of_idle {s : State} (h : s.inFlight = none) : s.called = s.draw := by
  simp [State.called, State.settle, h]

/-- R203: an idle device stays idle until the next accepted program or erase. -/
theorem called_inFlight_of_idle {s : State} (h : s.inFlight = none) : s.called.inFlight = none := by
  simp [called_of_idle h, h]

theorem called_flash_of_idle {s : State} (h : s.inFlight = none) : s.called.flash = s.flash := by
  simp [called_of_idle h]

theorem ready_iff (s : State) :
    s.ready = true ↔ s.opened = true ∧ s.condition = .configured ∧ s.inFlight = none := by
  simp [State.ready, State.busy, and_assoc]

theorem called_ready {s : State} (h : s.ready = true) : s.called.ready = true := by
  rw [ready_iff] at h ⊢
  simp [h.1, h.2.1, called_inFlight_of_idle h.2.2]

theorem settle_inFlight (d : Drawn) (s : State) :
    (s.settle d).inFlight = if d.ans.settled then none else s.inFlight := by
  unfold State.settle
  split
  · simp [*]
  · split <;> simp [*]

/-- R63, R203: after a call the operation is still in flight, or it has completed and the device is idle. -/
theorem called_inFlight (s : State) :
    s.called.inFlight = if (s.answer 0).settled then none else s.inFlight := by
  simp [State.called, settle_inFlight, State.drawn]

theorem sampleBusy_eq (s : State) : s.sampleBusy = (!(s.answer 0).settled && s.inFlight.isSome) := by
  simp only [State.sampleBusy, State.busy, called_inFlight]
  cases (s.answer 0).settled <;> simp

/-! ### An idle device becomes busy only by a program or an erase (R203) -/

theorem havoc_inFlight_of_idle {s : State} (h : s.inFlight = none) (d : Drawn) : (s.havoc false d).inFlight = none := by
  simp [State.busy, h]

theorem spoil_inFlight_of_idle (d : Drawn) (da n : Nat) (s : State) : (s.spoil false d da n).inFlight = none := rfl

theorem late_of_idle {s : State} (h : s.inFlight = none) (d : Drawn) : s.late d = s := by
  simp [State.late, h]

theorem reconfigure_of_idle {s : State} (h : s.inFlight = none) (d : Drawn) :
    s.reconfigure d = { s with activeBank := d.bank s.cfg } := by
  simp [State.reconfigure, State.busy, h]

theorem sampleBusy_of_idle {s : State} (h : s.inFlight = none) : s.sampleBusy = false := by
  simp [sampleBusy_eq, h]

theorem statusGet_inFlight_of_idle {s : State} (h : s.inFlight = none) : s.statusGet.inFlight = none := by
  simpa [State.statusGet] using called_inFlight_of_idle h

theorem bankSelect_inFlight_of_idle {s : State} (h : s.inFlight = none) (b : Nat) : (s.bankSelect b).inFlight = none := by
  have hc := called_inFlight_of_idle h
  simp only [State.bankSelect, log_inFlight]
  split <;> simp [hc, State.busy]

theorem memRead_inFlight_of_idle {s : State} (h : s.inFlight = none) (pa n : Nat) : (s.memRead pa n).inFlight = none := by
  have hc := called_inFlight_of_idle h
  simp only [State.memRead, log_inFlight]
  split <;> simp [hc, State.busy]

theorem peripheralOpen_inFlight_of_idle {s : State} (h : s.inFlight = none) : s.peripheralOpen.inFlight = none := by
  have hc := called_inFlight_of_idle h
  simp [State.peripheralOpen, reconfigure_of_idle hc, hc]

theorem directWrite_inFlight_of_idle {s : State} (h : s.inFlight = none) (bytes : List Byte) (keep : Bool) :
    (s.directWrite bytes keep).inFlight = none := by
  have hc := called_inFlight_of_idle h
  simp [State.directWrite, reconfigure_of_idle hc, hc]

theorem directRead_inFlight_of_idle {s : State} (h : s.inFlight = none) (n : Nat) : (s.directRead n).inFlight = none := by
  have hc := called_inFlight_of_idle h
  simp [State.directRead, reconfigure_of_idle hc, hc]

theorem peripheralClose_inFlight_of_idle {s : State} (h : s.inFlight = none) : s.peripheralClose.inFlight = none := by
  have hc := called_inFlight_of_idle h
  simp [State.peripheralClose, reconfigure_of_idle hc, hc]

/-! ### The flash array stays canonical and inside the device -/

/-- The array is in canonical form and lies inside the device. -/
def State.flashOk (s : State) : Prop := s.flash.wf ∧ s.flash.below s.cfg.totalSize

theorem flashOk_of_eq {s t : State} (hf : t.flash = s.flash) (hc : t.cfg = s.cfg) (h : s.flashOk) : t.flashOk := by
  unfold State.flashOk; rw [hf, hc]; exact h

theorem flashOk_settle {s : State} (h : s.flashOk) (d : Drawn) : (s.settle d).flashOk := by
  unfold State.settle
  repeat' split
  · exact h
  · exact ⟨InFlight.wf_complete h.1 _ _ _, InFlight.below_complete h.2 _ _⟩
  · exact h

theorem flashOk_called {s : State} (h : s.flashOk) : s.called.flashOk :=
  flashOk_settle (flashOk_of_eq (by simp) (by simp) h) _

theorem flashOk_havoc {s : State} (h : s.flashOk) {acc : Bool} {d : Drawn} : (s.havoc acc d).flashOk :=
  ⟨Memory.wf_storeCells h.1 _ _, Memory.below_storeCells h.2 _⟩

theorem flashOk_spoil {s : State} (h : s.flashOk) {busy : Bool} {d : Drawn} {da n : Nat} :
    (s.spoil busy d da n).flashOk :=
  ⟨Memory.wf_store h.1 _ _ _, Memory.below_store h.2 _ _⟩

theorem flashOk_late {s : State} (h : s.flashOk) (d : Drawn) : (s.late d).flashOk := by
  unfold State.late
  split
  · exact ⟨Memory.wf_store h.1 _ _ _, Memory.below_store h.2 _ _⟩
  · exact ⟨Memory.wf_store h.1 _ _ _, Memory.below_store h.2 _ _⟩
  · exact h

theorem flashOk_log {s : State} (h : s.flashOk) (p : Prim) : (s.log p).flashOk := h

theorem flashOk_statusGet {s : State} (h : s.flashOk) : s.statusGet.flashOk :=
  flashOk_of_eq (by simp [State.statusGet]) (by simp) (flashOk_called h)

theorem flashOk_bankSelect {s : State} (h : s.flashOk) (b : Nat) : (s.bankSelect b).flashOk := by
  have := flashOk_called h
  simp only [State.bankSelect]
  repeat' split
  all_goals first | exact this | exact flashOk_havoc this (acc := false)

theorem flashOk_program {s : State} (h : s.flashOk) (src : List Byte) (pa n : Nat) : (s.program src pa n).flashOk := by
  have := flashOk_called h
  simp only [State.program]
  repeat' split
  · exact this
  · exact flashOk_spoil this (busy := s.drawn.ans.busy)
  · exact flashOk_havoc this (acc := true)

theorem flashOk_eraseBlock {s : State} (h : s.flashOk) (pa n : Nat) : (s.eraseBlock pa n).flashOk := by
  have := flashOk_called h
  simp only [State.eraseBlock]
  repeat' split
  · exact this
  · exact flashOk_spoil this (busy := s.drawn.ans.busy)
  · exact flashOk_havoc this (acc := true)

theorem flashOk_memRead {s : State} (h : s.flashOk) (pa n : Nat) : (s.memRead pa n).flashOk := by
  have := flashOk_called h
  simp only [State.memRead]
  split
  · exact this
  · exact flashOk_havoc this (acc := false)

theorem flashOk_reconfigure {s : State} (h : s.flashOk) (d : Drawn) : (s.reconfigure d).flashOk := by
  unfold State.reconfigure
  split
  · exact flashOk_havoc h (acc := false)
  · exact h

theorem flashOk_peripheralOpen {s : State} (h : s.flashOk) : s.peripheralOpen.flashOk :=
  flashOk_of_eq (by simp [State.peripheralOpen]) (by simp) (flashOk_reconfigure (flashOk_called h) s.drawn)

theorem flashOk_directWrite {s : State} (h : s.flashOk) (bytes : List Byte) (keep : Bool) :
    (s.directWrite bytes keep).flashOk :=
  flashOk_of_eq (by simp [State.directWrite]) (by simp) (flashOk_reconfigure (flashOk_called h) s.drawn)

theorem flashOk_directRead {s : State} (h : s.flashOk) (n : Nat) : (s.directRead n).flashOk :=
  flashOk_of_eq (by simp [State.directRead]) (by simp) (flashOk_reconfigure (flashOk_called h) s.drawn)

theorem flashOk_peripheralClose {s : State} (h : s.flashOk) : s.peripheralClose.flashOk :=
  flashOk_of_eq (by simp [State.peripheralClose]) (by simp) (flashOk_reconfigure (flashOk_called h) s.drawn)

/-! ### A call to a device that is ready -/

theorem bankSelect_of_ready {s : State} (h : s.ready = true) (b : Nat) :
    s.bankSelect b = { s.draw with
      activeBank := if s.nextStatus = 0 then b else s.drawn.bank s.cfg
      trace := s.trace ++ [.bankSelect b s.nextStatus] } := by
  have hr := called_ready h
  have hi := ((ready_iff s).1 h).2.2
  unfold State.bankSelect
  simp only [hr, if_true]
  simp only [called_of_idle hi]
  rfl

theorem program_of_ready {s : State} (h : s.ready = true) (hst : s.nextStatus = 0) (src : List Byte) (pa n : Nat) :
    s.program src pa n = { s.draw with
      inFlight := some (.program (s.deviceAddress pa) src)
      trace := s.trace ++ [.program src pa n 0] } := by
  have hr := called_ready h
  have hi := ((ready_iff s).1 h).2.2
  unfold State.program
  simp only [hr, if_true, hst]
  simp only [called_of_idle hi]
  rfl

theorem eraseBlock_of_ready {s : State} (h : s.ready = true) (hst : s.nextStatus = 0) (pa n : Nat) :
    s.eraseBlock pa n = { s.draw with
      inFlight := some (.erase (s.deviceAddress pa) n)
      trace := s.trace ++ [.eraseBlock pa n 0] } := by
  have hr := called_ready h
  have hi := ((ready_iff s).1 h).2.2
  unfold State.eraseBlock
  simp only [hr, if_true, hst]
  simp only [called_of_idle hi]
  rfl

theorem memRead_of_ready {s : State} (h : s.ready = true) (pa n : Nat) :
    s.memRead pa n = { s.draw with trace := s.trace ++ [.memRead pa n (s.windowBytes pa n)] } := by
  have hr := called_ready h
  have hi := ((ready_iff s).1 h).2.2
  unfold State.memRead
  simp only [hr, if_true]
  simp only [called_of_idle hi]
  rfl

/-- R62: what the window shows of a ready device, inside the device. -/
theorem windowBytes_of_ready {s : State} (h : s.ready = true) (pa n : Nat)
    (hin : s.deviceAddress pa + n ≤ s.cfg.totalSize) : s.windowBytes pa n = s.flash.readRange (s.deviceAddress pa) n := by
  have hr := called_ready h
  have hi := ((ready_iff s).1 h).2.2
  unfold State.windowBytes Memory.readRange
  refine List.map_congr_left fun i hi' => ?_
  have : i < n := List.mem_range.1 hi'
  have hd : s.called.deviceAddress pa = s.deviceAddress pa := by simp [State.deviceAddress]
  unfold State.windowByte
  rw [hr, hd, called_cfg, called_flash_of_idle hi]
  simp only [Bool.true_and, decide_eq_true_eq]
  rw [if_pos (by omega)]

/-- R59: under the bank of `la` the device address of its physical address is `la`. -/
theorem deviceAddress_translate {s : State} {la : Nat} (hb : s.activeBank = translateBank s.cfg la) :
    s.deviceAddress (translatePa s.cfg la) = la := by
  simp only [State.deviceAddress, hb, translateBank, translatePa, Nat.add_sub_cancel_left]
  rw [Nat.mul_comm]
  exact Nat.div_add_mod la s.cfg.window

end Sys2Proof.Machine
end

