-- ==== Sys2Proof/Laws/PerInstr.lean ====
section
/-! SUPPORT. Facts about every command as syntax, one lemma per constructor. -/

namespace Sys2Proof.Laws.Encoding

/-- R82, R83, R84: under the mask `0xEF` the `CMD` byte of a command is its opcode (so its reserved bits are zero), and a
command's descriptor decodes to the command, an alias to the command it names. -/
def Statement (i : Instr) : Prop :=
  (encode i).cmd &&& 0xEF#8 = i.opcode.setWidth 8 ∧ decode (encode i) = .ok i.canonical

theorem openCmd : Statement .openCmd := ⟨by decide, rfl⟩
theorem closeCmd : Statement .closeCmd := ⟨by decide, rfl⟩
theorem read (bv : Bool) (addr len : Nat) : Statement (.read bv addr len) := by
  cases bv <;> simp [Statement, encode, cmdByte, decode, cmdReservedBits, cmdOp, cmdBv, Instr.opcode, Instr.canonical]
theorem program (bv : Bool) (addr len : Nat) : Statement (.program bv addr len) := by
  cases bv <;> simp [Statement, encode, cmdByte, decode, cmdReservedBits, cmdOp, cmdBv, Instr.opcode, Instr.canonical]
theorem erase (addr len : Nat) : Statement (.erase addr len) := by
  simp [Statement, encode, cmdByte, decode, cmdReservedBits, cmdOp, Instr.opcode, Instr.canonical]
theorem size : Statement .size := ⟨by decide, rfl⟩
theorem getReadSize : Statement .getReadSize := ⟨by decide, rfl⟩
theorem getProgramSize : Statement .getProgramSize := ⟨by decide, rfl⟩
theorem getEraseSize : Statement .getEraseSize := ⟨by decide, rfl⟩
theorem getType : Statement .getType := ⟨by decide, rfl⟩
theorem initCmd : Statement .initCmd := ⟨by decide, rfl⟩
theorem deinitCmd : Statement .deinitCmd := ⟨by decide, rfl⟩
theorem write (bv : Bool) (addr len : Nat) : Statement (.write bv addr len) := by
  cases bv <;> simp [Statement, encode, cmdByte, decode, cmdReservedBits, cmdOp, cmdBv, Instr.opcode, Instr.canonical]

end Sys2Proof.Laws.Encoding
end

