-- ==== Sys2Proof/Laws/Sequencer.lean ====
section
/-! SUPPORT. How a command's meaning unfolds into sequencer steps: `exec` is one acceptance and a run, a run keeps what
every step keeps, and every step of a legal configuration spends some of a budget, so that a run ends. -/

namespace Sys2Proof.Machine

/-! ### exec is an acceptance and a run -/

/-- Every command is the shared `command` on its loaded registers; only a buffer that is too short stops it. -/
theorem exec_eq_command (i : Instr) (s : State) :
    exec i s = if s.bufferFits i then s.command (i.load s.regs) else .refused .bufferTooShort := by
  cases i <;> simp [exec, execOpen, execClose, execRead, execProgram, execErase, execSize, execGetReadSize,
    execGetProgramSize, execGetEraseSize, execGetType, execInit, execDeinit, execWrite, State.commandQ, State.commandE,
    State.commandT, State.bufferFits, Instr.load, Instr.opcode]
  all_goals rename_i bv addr len; cases h : s.bufferTooShort bv addr len <;> simp

/-- The sequencer steps a command is given. -/
def commandBound (i : Instr) (s : State) : Nat := tickBound s.cfg (i.load s.regs).len

theorem exec_of_idle {i : Instr} {s : State} (hb : s.bufferFits i = true) (hi : s.fsm = .idle) :
    exec i s = .next ((s.accept (i.load s.regs)).run (commandBound i s)) := by
  simp [exec_eq_command, hb, State.command, hi, commandBound]

theorem exec_next {i : Instr} {s t : State} (h : exec i s = .next t) :
    s.bufferFits i = true ∧ s.fsm = .idle ∧ t = (s.accept (i.load s.regs)).run (commandBound i s) := by
  rw [exec_eq_command] at h
  split at h
  · rename_i hb
    unfold State.command at h
    split at h
    · cases h; exact ⟨hb, by assumption, rfl⟩
    · cases h
  · cases h

/-! ### Steps and runs -/

theorem tickBy_of_noReset {s : State} (h : s.resets = []) (visit : State → State) : s.tickBy visit = visit s := by
  simp [State.tickBy, h]

/-- R243: a reset that is due is the step. -/
theorem tickBy_of_due {s : State} {later : List Nat} (h : s.resets = 0 :: later) (visit : State → State) :
    s.tickBy visit = s.takeReset := by
  simp [State.tickBy, h]

/-- A reset that is not due yet only draws nearer. -/
theorem tickBy_of_later {s : State} {k : Nat} {later : List Nat} (h : s.resets = (k + 1) :: later)
    (visit : State → State) : s.tickBy visit = visit { s with resets := k :: later } := by
  simp [State.tickBy, h]

theorem tick_of_noReset {s : State} (h : s.resets = []) : s.tick = s.visit := tickBy_of_noReset h _

theorem tick_of_due {s : State} {later : List Nat} (h : s.resets = 0 :: later) : s.tick = s.takeReset :=
  tickBy_of_due h _

theorem tick_of_later {s : State} {k : Nat} {later : List Nat} (h : s.resets = (k + 1) :: later) :
    s.tick = { s with resets := k :: later }.visit := tickBy_of_later h _

@[simp] theorem run_zero (s : State) : s.run 0 = s := rfl

theorem run_of_idle {s : State} (h : s.fsm = .idle) (n : Nat) : s.run n = s := by
  cases n <;> simp [State.run, h]

theorem run_succ {s : State} (h : s.fsm ≠ .idle) (n : Nat) : s.run (n + 1) = s.tick.run n := by
  simp [State.run, h]

theorem run_add (s : State) (m n : Nat) : s.run (m + n) = (s.run m).run n := by
  induction m generalizing s with
  | zero => simp
  | succ m ih =>
    by_cases h : s.fsm = .idle
    · simp [run_of_idle h]
    · rw [Nat.succ_add, run_succ h, run_succ h, ih]

/-- What every step outside `S_IDLE` keeps, a run keeps. -/
theorem run_keeps {P : State → Prop} (hstep : ∀ u : State, u.fsm ≠ .idle → P u → P u.tick) (n : Nat) {s : State}
    (h : P s) : P (s.run n) := by
  induction n generalizing s with
  | zero => exact h
  | succ n ih =>
    by_cases hi : s.fsm = .idle
    · rw [run_of_idle hi]; exact h
    · rw [run_succ hi]; exact ih (hstep s hi h)

/-- What acceptance establishes and every step keeps holds of the state a command leaves. -/
theorem exec_keeps {P : State → Prop} {i : Instr} {s t : State} (h : exec i s = .next t)
    (hacc : P (s.accept (i.load s.regs))) (hstep : ∀ u : State, u.fsm ≠ .idle → P u → P u.tick) : P t := by
  obtain ⟨-, -, rfl⟩ := exec_next h
  exact run_keeps hstep _ hacc

/-- A property of the block's visits and of its reset is a property of its steps, where it does not look at the reset
input. -/
theorem tick_keeps {P : State → Prop} (hin : ∀ (u : State) r, P u → P { u with resets := r })
    (hvisit : ∀ u : State, P u → P u.visit) (hreset : ∀ u : State, P u → P u.takeReset) {s : State} (h : P s) :
    P s.tick := by
  unfold State.tick State.tickBy
  split
  · exact hvisit s h
  · exact hreset s h
  · exact hvisit _ (hin s _ h)

/-! ### What no visit changes -/

@[simp] theorem latch_op (k : Kind) (n : Nat) (r : Regs) : (r.latch k n).op = r.op := rfl
@[simp] theorem latch_stKind (k : Kind) (n : Nat) (r : Regs) : (r.latch k n).stKind = k := rfl
@[simp] theorem latch_stInfo (k : Kind) (n : Nat) (r : Regs) : (r.latch k n).stInfo = n := rfl
@[simp] theorem latch_value (k : Kind) (n : Nat) (r : Regs) : (r.latch k n).value = r.value := rfl
@[simp] theorem clearLatch_op (r : Regs) : r.clearLatch.op = r.op := rfl
@[simp] theorem clearLatch_stKind (r : Regs) : r.clearLatch.stKind = .ok := rfl
@[simp] theorem clearLatch_stInfo (r : Regs) : r.clearLatch.stInfo = 0 := rfl
@[simp] theorem clearLatch_value (r : Regs) : r.clearLatch.value = 0 := rfl

/-- R20: no visit changes the configuration. -/
@[simp] theorem visit_cfg (s : State) : s.visit.cfg = s.cfg := by
  unfold State.visit
  split <;> (try simp only [State.visitCheck, State.visitXlate, State.visitBank, State.visitSeg, State.visitXfer,
    State.visitPoll, State.visitAdv, State.visitHsOpen, State.visitHsWren, State.visitHsWrsr, State.visitHsRdbk,
    State.visitClose, State.checkBuffer, State.checkRange, State.loadTransfer, State.checkErase, State.xferRead,
    State.xferProgram, State.xferErase, State.visitHsRead]) <;> (repeat' split) <;> simp

/-- No visit takes a request from the host. -/
@[simp] theorem visit_hc (s : State) : s.visit.hc = s.hc := by
  unfold State.visit
  split <;> (try simp only [State.visitCheck, State.visitXlate, State.visitBank, State.visitSeg, State.visitXfer,
    State.visitPoll, State.visitAdv, State.visitHsOpen, State.visitHsWren, State.visitHsWrsr, State.visitHsRdbk,
    State.visitClose, State.checkBuffer, State.checkRange, State.loadTransfer, State.checkErase, State.xferRead,
    State.xferProgram, State.xferErase, State.visitHsRead]) <;> (repeat' split) <;> simp

/-- No visit touches the reset input. -/
@[simp] theorem visit_resets (s : State) : s.visit.resets = s.resets := by
  unfold State.visit
  split <;> (try simp only [State.visitCheck, State.visitXlate, State.visitBank, State.visitSeg, State.visitXfer,
    State.visitPoll, State.visitAdv, State.visitHsOpen, State.visitHsWren, State.visitHsWrsr, State.visitHsRdbk,
    State.visitClose, State.checkBuffer, State.checkRange, State.loadTransfer, State.checkErase, State.xferRead,
    State.xferProgram, State.xferErase, State.visitHsRead]) <;> (repeat' split) <;> simp

@[simp] theorem tick_cfg (s : State) : s.tick.cfg = s.cfg := by
  unfold State.tick State.tickBy; split <;> simp

@[simp] theorem tick_hc (s : State) : s.tick.hc = s.hc := by
  unfold State.tick State.tickBy; split <;> simp

theorem tick_resets_of_nil {s : State} (h : s.resets = []) : s.tick.resets = [] := by
  simp [tick_of_noReset h, h]

@[simp] theorem run_cfg (n : Nat) (s : State) : (s.run n).cfg = s.cfg :=
  run_keeps (P := fun u => u.cfg = s.cfg) (fun u _ h => by simpa using h) n rfl

@[simp] theorem run_hc (n : Nat) (s : State) : (s.run n).hc = s.hc :=
  run_keeps (P := fun u => u.hc = s.hc) (fun u _ h => by simpa using h) n rfl

theorem run_resets_of_nil {s : State} (h : s.resets = []) (n : Nat) : (s.run n).resets = [] :=
  run_keeps (P := fun u => u.resets = []) (fun _ _ h => tick_resets_of_nil h) n h

/-! ### What a legal configuration gives -/

/-- The clauses of `Config.wf` (R9, R10) as facts. -/
theorem wf_facts {c : Config} (h : c.wf = true) :
    0 < c.window ∧ 0 < c.totalSize ∧ 0 < c.readGran ∧ 0 < c.progGran ∧ 0 < c.eraseGran ∧
      c.readGran ∣ c.window ∧ c.progGran ∣ c.window ∧ c.eraseGran ∣ c.window ∧ c.totalSize < 2 ^ c.aw ∧
      c.eraseGran ∣ c.totalSize ∧ c.baseAddress + c.window ≤ 2 ^ c.paW ∧ 1 ≤ c.pollLimit ∧ 1 ≤ c.perrW ∧
      c.openMismatchCode ≠ 0 ∧ c.openMismatchCode < 2 ^ c.perrW := by
  simpa [Config.wf, and_assoc, Nat.dvd_iff_mod_eq_zero] using h

/-- R116: a segment can always take at least one byte of its window. -/
theorem remainWindow_pos {c : Config} (h : c.wf = true) (la : Nat) : 1 ≤ remainWindow c la := by
  have := Nat.mod_lt la (wf_facts h).1
  unfold remainWindow; omega

theorem remainPage_pos {c : Config} (h : c.wf = true) (la : Nat) : 1 ≤ remainPage c la := by
  have := Nat.mod_lt la (wf_facts h).2.2.2.1
  unfold remainPage; omega

theorem remainBlock_pos {c : Config} (h : c.wf = true) (la : Nat) : 1 ≤ remainBlock c la := by
  have := Nat.mod_lt la (wf_facts h).2.2.2.2.1
  unfold remainBlock; omega

/-- Every segment advances the transfer, while bytes remain. -/
theorem advanceStep_pos {c : Config} (h : c.wf = true) (op : Opcode) (cursor : Nat) {remaining : Int}
    (hr : 0 < remaining) : 1 ≤ advanceStep c op cursor (segmentLength c op cursor remaining) := by
  have h1 := remainWindow_pos h cursor
  have h2 := remainPage_pos h cursor
  have h3 := remainBlock_pos h cursor
  have h4 := (wf_facts h).2.2.2.2.1
  unfold advanceStep eraseStep segmentLength
  repeat' split
  all_goals omega

/-! ### Every run ends -/

/-- What the loop needs once `remaining` is `r`. -/
def restBudget (per : Nat) (r : Int) : Nat := if r > 0 then r.toNat * per + per else 1

theorem restBudget_sub (per : Nat) (r : Int) (n : Nat) (hn : 0 < r → 1 ≤ n) :
    restBudget per (r - n) ≤ r.toNat * per + 1 := by
  unfold restBudget
  split
  · have h1 : (r - n).toNat + 1 ≤ r.toNat := by omega
    have h2 := Nat.mul_le_mul_right per h1
    rw [Nat.add_mul] at h2
    omega
  · omega

/-- Enough sequencer steps to be idle again, whatever the oracle answers. -/
def State.budget (s : State) : Nat :=
  let per := s.cfg.pollLimit + 8
  let rest := restBudget per (s.regs.remaining - (advanceStep s.cfg s.regs.op s.regs.cursor s.regs.segLen : Nat))
  match s.fsm with
  | .idle => 0
  | .resp => 1
  | .close => 2
  | .hsRead => 2
  | .hsRdbk => 3
  | .hsWrsr => 4
  | .hsWren => 5
  | .hsOpen => 6
  | .check => s.regs.len * per + per + 7
  | .xlate => s.regs.remaining.toNat * per + per
  | .bank => s.regs.remaining.toNat * per + per - 1
  | .seg => s.regs.remaining.toNat * per + per - 2
  | .xfer => s.cfg.pollLimit + 3 + (1 + rest)
  | .poll => s.regs.pollCnt + 1 + (1 + rest)
  | .adv => 1 + rest

theorem budget_visit {s : State} (hc : s.cfg.wf = true) (hi : s.fsm ≠ .idle) : s.visit.budget < s.budget := by
  unfold State.visit
  split
  · contradiction
  all_goals rename_i hf
  · have key : s.budget = s.regs.len * (s.cfg.pollLimit + 8) + (s.cfg.pollLimit + 8) + 7 := by simp [State.budget, hf]
    rw [key]
    simp only [State.visitCheck, State.checkBuffer, State.checkRange, State.loadTransfer, State.checkErase]
    repeat' split
    all_goals simp [State.budget, Regs.clearLatch]
  · simp [State.budget, hf, State.visitXlate]
  · simp only [State.visitBank]
    split <;> simp [State.budget, hf] <;> omega
  · have := restBudget_sub (s.cfg.pollLimit + 8) s.regs.remaining _
      (fun h => advanceStep_pos hc s.regs.op s.regs.cursor h)
    simp only [State.visitSeg, State.budget, hf]
    omega
  · simp only [State.visitXfer, State.xferRead, State.xferProgram, State.xferErase]
    repeat' split
    all_goals simp [State.budget, hf]
    all_goals omega
  · simp only [State.visitPoll]
    repeat' split
    all_goals simp_all [State.budget]
    all_goals omega
  · by_cases h : s.regs.remaining - (advanceStep s.cfg s.regs.op s.regs.cursor s.regs.segLen : Nat) > 0
    · simp only [State.visitAdv, State.budget, hf, if_pos h, restBudget]
      omega
    · simp only [State.visitAdv, State.budget, hf, if_neg h, restBudget]
      omega
  · simp only [State.visitHsOpen]; split <;> simp [State.budget, hf]
  · simp only [State.visitHsWren]; split <;> simp [State.budget, hf]
  · simp only [State.visitHsWrsr]; split <;> simp [State.budget, hf]
  · simp only [State.visitHsRdbk]; split <;> simp [State.budget, hf]
  · simp only [State.visitHsRead]; repeat' split
    all_goals simp [State.budget, hf]
  · simp only [State.visitClose]; split <;> simp [State.budget, hf]
  · simp [State.budget, hf]

theorem budget_tick {s : State} (hc : s.cfg.wf = true) (hi : s.fsm ≠ .idle) : s.tick.budget < s.budget := by
  unfold State.tick State.tickBy
  split
  · exact budget_visit hc hi
  · cases hf : s.fsm <;> simp_all [State.budget]; omega
  · exact budget_visit (s := { s with resets := _ }) hc hi

/-- R136, R71: a run that is given its budget ends in `S_IDLE`. -/
theorem run_fsm_of_budget {s : State} (hc : s.cfg.wf = true) {n : Nat} (hn : s.budget ≤ n) : (s.run n).fsm = .idle := by
  induction n generalizing s with
  | zero =>
    by_contra h
    have := budget_tick hc h
    simp at h
    omega
  | succ n ih =>
    by_cases h : s.fsm = .idle
    · rw [run_of_idle h, h]
    · rw [run_succ h]
      exact ih (by simpa using hc) (by have := budget_tick hc h; omega)

theorem budget_accept (i : Instr) (s : State) : (s.accept (i.load s.regs)).budget ≤ commandBound i s := by
  simp only [State.budget, accept_fsm, accept_cfg, accept_regs, commandBound, tickBound, Nat.add_mul]
  omega

end Sys2Proof.Machine
end

