-- ==== Sys2Proof/Laws/Visits.lean ====
section
/-! SUPPORT. What each visit of a sequencer state can do, said once: one case for each way out of the state (R23). -/

namespace Sys2Proof.Machine

/-- Code 1: the ways out of `S_CHECK`, by the opcode. The latch is clear when they are taken. -/
theorem visitCheck_cases (s : State) :
    let c : State := { s with regs := s.regs.clearLatch }
    (s.regs.op = 0 ∧ s.visitCheck = c.goto (if s.opened then .resp else .hsOpen)) ∨
    (s.regs.op = 1 ∧ s.visitCheck = c.goto .close) ∨
    ((s.regs.op = 2 ∨ s.regs.op = 3) ∧ s.visitCheck = c.checkBuffer) ∨
    (s.regs.op = 4 ∧ s.visitCheck = c.checkErase) ∨
    (s.regs.op = 5 ∧ s.visitCheck = c.answerValue s.cfg.totalSize) ∨
    (s.regs.op = 6 ∧ s.visitCheck = c.answerValue s.cfg.readGran) ∨
    (s.regs.op = 7 ∧ s.visitCheck = c.answerValue s.cfg.progGran) ∨
    (s.regs.op = 8 ∧ s.visitCheck = c.answerValue s.cfg.eraseGran) ∨
    (s.regs.op = 9 ∧ s.visitCheck = c.goto .resp) ∨
    (10 ≤ s.regs.op.toNat ∧ s.visitCheck = c.raise .invalidArgument 0) := by
  have named {k : Opcode} (h : s.regs.op.toNat = k.toNat) : s.regs.op = k := BitVec.eq_of_toNat_eq h
  unfold State.visitCheck
  simp only [clearLatch_op]
  split
  case h_1 h => exact .inl ⟨named h, rfl⟩
  case h_2 h => exact .inr (.inl ⟨named h, rfl⟩)
  case h_3 h => exact .inr (.inr (.inl ⟨.inl (named h), rfl⟩))
  case h_4 h => exact .inr (.inr (.inl ⟨.inr (named h), rfl⟩))
  case h_5 h => exact .inr (.inr (.inr (.inl ⟨named h, rfl⟩)))
  case h_6 h => simp [named (k := 5) h]
  case h_7 h => simp [named (k := 6) h]
  case h_8 h => simp [named (k := 7) h]
  case h_9 h => simp [named (k := 8) h]
  case h_10 h => simp [named (k := 9) h]
  case h_11 =>
    iterate 9 apply Or.inr
    exact ⟨by simp only [imp_false] at *; omega, rfl⟩

/-- `S_CHECK` of READ and PROGRAM: no buffer, outside the range, or the transfer starts (R112, R145). -/
theorem checkBuffer_cases (s : State) :
    (s.regs.bufValid = false ∧ s.checkBuffer = s.raise .invalidArgument 0) ∨
    (s.regs.bufValid = true ∧ s.cfg.totalSize < s.regs.addr + s.regs.len ∧ s.checkBuffer = s.raise .invalidAddress 0) ∨
    (s.regs.bufValid = true ∧ s.regs.addr + s.regs.len ≤ s.cfg.totalSize ∧
      s.checkBuffer = s.loadTransfer s.regs.addr) := by
  unfold State.checkBuffer validateBuf
  cases h : s.regs.bufValid
  · simp
  · by_cases hr : s.cfg.totalSize < s.regs.addr + s.regs.len <;> simp [State.checkRange, validateRange, hr]; omega

/-- `S_CHECK` of ERASE: outside the range, nothing to do, or the loop starts (R160, R162). -/
theorem checkErase_cases (s : State) :
    (s.cfg.totalSize < s.regs.addr + s.regs.len ∧ s.checkErase = s.raise .invalidAddress 0) ∨
    (s.regs.addr + s.regs.len ≤ s.cfg.totalSize ∧ s.checkErase =
      { s with
        regs := { s.regs with cursor := eraseStart s.cfg s.regs.addr, remaining := (s.regs.len : Int) }
        fsm := if s.regs.len = 0 then .resp else .xlate }) := by
  unfold State.checkErase validateRange
  by_cases hr : s.cfg.totalSize < s.regs.addr + s.regs.len <;> simp [hr]; omega

/-- Code 3: the bank is selected, or the command ends. -/
theorem visitBank_cases (s : State) :
    (s.nextStatus = 0 ∧ s.visitBank = (s.bankSelect s.regs.bank).goto .seg) ∨
    (s.nextStatus ≠ 0 ∧ s.visitBank = (s.bankSelect s.regs.bank).raise .deviceError s.nextStatus) := by
  by_cases h : s.nextStatus = 0 <;> simp [State.visitBank, h]

/-- Code 5: a READ copies its segment; a PROGRAM or an ERASE (any other opcode) issues its primitive, and polls on
success. -/
theorem visitXfer_cases (s : State) :
    (s.regs.op = 2 ∧ s.visitXfer = s.xferRead) ∨
    (s.regs.op ≠ 2 ∧ ∃ t : State,
      (s.regs.op = 3 ∧ t = s.program (bufRead s.hb s.regs.bufOff s.regs.segLen) s.regs.pa s.regs.segLen ∨
        s.regs.op ≠ 3 ∧ t = s.eraseBlock s.regs.pa s.regs.segLen) ∧
      (s.nextStatus = 0 ∧ s.visitXfer = t.startPoll ∨
        s.nextStatus ≠ 0 ∧ s.visitXfer = t.raise .deviceError s.nextStatus)) := by
  unfold State.visitXfer
  by_cases h2 : s.regs.op = 2
  · exact .inl ⟨h2, by simp [h2]⟩
  · refine .inr ⟨h2, ?_⟩
    by_cases h3 : s.regs.op = 3
    · refine ⟨_, .inl ⟨h3, rfl⟩, ?_⟩
      rw [if_neg h2, if_pos h3]
      by_cases hs : s.nextStatus = 0 <;> simp [hs, State.xferProgram]
    · refine ⟨_, .inr ⟨h3, rfl⟩, ?_⟩
      rw [if_neg h2, if_neg h3]
      by_cases hs : s.nextStatus = 0 <;> simp [hs, State.xferErase]

/-- Code 6: an error, a ready device, a counter that ran out, or one more sample (R131, R132). -/
theorem visitPoll_cases (s : State) :
    let t := s.statusGet
    let u : State := { t with regs := { t.regs with pollCnt := t.regs.pollCnt - 1 } }
    (s.nextStatus ≠ 0 ∧ s.visitPoll =
      (t.spoil s.sampleBusy s.drawn (t.deviceAddress s.regs.pa) s.regs.segLen).raise .deviceError s.nextStatus) ∨
    (s.nextStatus = 0 ∧ s.sampleBusy = false ∧ s.visitPoll = t.goto .adv) ∨
    (s.nextStatus = 0 ∧ s.sampleBusy = true ∧ s.regs.pollCnt ≤ 1 ∧ s.visitPoll = (u.late s.drawn).raise .timeout 0) ∨
    (s.nextStatus = 0 ∧ s.sampleBusy = true ∧ 1 < s.regs.pollCnt ∧ s.visitPoll = u) := by
  simp only [State.visitPoll]
  by_cases hs : s.nextStatus = 0
  · cases hb : s.sampleBusy
    · simp [hs]
    · by_cases hc : s.regs.pollCnt ≤ 1
      · simp [hs, hc, show s.regs.pollCnt - 1 = 0 by omega]
      · simp [hs, show ¬s.regs.pollCnt - 1 = 0 by omega, show 1 < s.regs.pollCnt by omega]
  · simp [hs]

/-- Code 11, first call: the read-back is next, or the command ends (R172, H4). -/
theorem visitHsRdbk_cases (s : State) :
    (s.nextStatus = 0 ∧ s.visitHsRdbk = (s.directWrite [s.cfg.cmdRdsr] true).goto .hsRead) ∨
    (s.nextStatus ≠ 0 ∧
      s.visitHsRdbk = (s.directWrite [s.cfg.cmdRdsr] true).raise .deviceError s.nextStatus) := by
  by_cases h : s.nextStatus = 0 <;> simp [State.visitHsRdbk, h]

/-- Code 11, second call: a failure, a match or a mismatch (R171, R172, H4). -/
theorem visitHsRead_cases (s : State) :
    let t := s.directRead s.cfg.srExpected.length
    let v := s.directReadBytes s.cfg.srExpected.length
    (s.nextStatus ≠ 0 ∧ s.visitHsRead = t.raise .deviceError s.nextStatus) ∨
    (s.nextStatus = 0 ∧ v = s.cfg.srExpected ∧
      s.visitHsRead = { t with opened := true, condition := .configured, fsm := .resp }) ∨
    (s.nextStatus = 0 ∧ v ≠ s.cfg.srExpected ∧ s.visitHsRead = t.raise .deviceError s.cfg.openMismatchCode) := by
  by_cases h : s.nextStatus = 0
  · by_cases hv : s.directReadBytes s.cfg.srExpected.length = s.cfg.srExpected <;> simp [State.visitHsRead, h, hv]
  · simp [State.visitHsRead, h]

end Sys2Proof.Machine
end

