-- ==== Sys2Proof/Tests/Slice0.lean ====
section
/-! SUPPORT. Tests of single commands and steps, whose expected results are the vectors of spec/95_test_vectors.md (each
named in its comment); ill-formed terms that WellFormed refuses; and, for every statement of
Certificates/Slice0/Obligations.lean with hypotheses, a concrete state and operands that meet them together
(`witness_<statement>`, one for each clause). -/

namespace Sys2Proof.Tests

open Sys2Proof Sys2Proof.Machine

/-! ### Helpers -/

/-- Test configuration TC1 (spec/95, section 0.1) is the configuration of `State.reset`. -/
abbrev tc1 : Config := Config.hardware

/-- Test configuration TC2 (spec/95, section 0.1). -/
abbrev tc2 : Config :=
  { Config.hardware with window := 0x40, totalSize := 0x80, progGran := 8, eraseGran := 0x10, baseAddress := 0x1000 }

/-- A small two-bank configuration for the witnesses. -/
abbrev tiny : Config :=
  { Config.hardware with
    aw := 5, paW := 6, window := 8, totalSize := 16, progGran := 4, eraseGran := 4, baseAddress := 0x20, pollLimit := 2 }

/-- The primitive succeeds, and the device has finished what it was doing. -/
abbrev ok : Answer := ⟨0, true, false, 0, [], [], []⟩

/-- The primitive succeeds, and the device has not finished. -/
abbrev busy : Answer := ⟨0, false, false, 0, [], [], []⟩

/-- The primitive fails with the code `c`. -/
abbrev fails (c : Nat) : Answer := ⟨c, false, false, 0, [], [], []⟩

/-- An open block on an idle device. -/
abbrev openState (c : Config) (script : List Answer) (hb : List Byte) (flash : Memory) : State :=
  { State.resetOf c with opened := true, condition := .configured, script := script, hb := hb, flash := flash }

/-- A closed block right after reset. -/
abbrev closedState (c : Config) (script : List Answer) : State := { State.resetOf c with script := script }

/-- The outcome is a next state that satisfies `P`. -/
def Ends (o : Host.Outcome State Fault Refusal) (P : State → Prop) [DecidablePred P] : Bool :=
  match o with
  | .next t => decide (P t)
  | _ => false

theorem of_ends {o : Host.Outcome State Fault Refusal} {P : State → Prop} [DecidablePred P] (h : Ends o P = true) :
    ∃ t, o = .next t ∧ P t := by
  cases o <;> simp_all [Ends]

/-! ### Decoding (spec/30, R82 to R87; spec/95, section 2.9) -/

/- the eight bits of `CMD`: three reserved bits, `bv`, four bits of the opcode -/
theorem test_decode_open : decode ⟨0b00000000#8, 5, 6⟩ = .ok .openCmd := by decide
theorem test_decode_close : decode ⟨0b00010001#8, 5, 6⟩ = .ok .closeCmd := by decide
theorem test_decode_read : decode ⟨0b00010010#8, 5, 6⟩ = .ok (.read true 5 6) := by decide
theorem test_decode_read_null : decode ⟨0b00000010#8, 5, 6⟩ = .ok (.read false 5 6) := by decide
theorem test_decode_program : decode ⟨0b00010011#8, 5, 6⟩ = .ok (.program true 5 6) := by decide
theorem test_decode_erase : decode ⟨0b00000100#8, 5, 6⟩ = .ok (.erase 5 6) := by decide
theorem test_decode_erase_bv : decode ⟨0b00010100#8, 5, 6⟩ = .ok (.erase 5 6) := by decide
theorem test_decode_size : decode ⟨0b00000101#8, 5, 6⟩ = .ok .size := by decide
theorem test_decode_getReadSize : decode ⟨0b00000110#8, 5, 6⟩ = .ok .getReadSize := by decide
theorem test_decode_getProgramSize : decode ⟨0b00000111#8, 5, 6⟩ = .ok .getProgramSize := by decide
theorem test_decode_getEraseSize : decode ⟨0b00001000#8, 5, 6⟩ = .ok .getEraseSize := by decide
theorem test_decode_getType : decode ⟨0b00011001#8, 5, 6⟩ = .ok .getType := by decide
/- V-D9, V-D11, V-D12 -/
theorem test_decode_reserved_opcode : decode ⟨0x0A#8, 0, 0⟩ = .error .reservedOpcode := by decide
theorem test_decode_reserved_last : decode ⟨0x1F#8, 0, 0⟩ = .error .reservedOpcode := by decide
theorem test_decode_reserved_bits : decode ⟨0x32#8, 0, 0⟩ = .error .reservedBits := by decide
/- spec/95, section 0.3: the 72-bit word of `READ buf, 0x3FFFFF0, 0x20` -/
theorem test_unpack : decode (Descriptor.unpack 32 0x1203FFFFF000000020) = .ok (.read true 0x3FFFFF0 0x20) := by decide
theorem test_pack_initCmd : (encode .initCmd).pack 32 = 0 := by decide
theorem test_pack_deinitCmd : (encode .deinitCmd).pack 32 = 0x010000000000000000 := by decide
theorem test_pack_write : (encode (.write true 0x3FFFFCE 0x2710)).pack 32 = 0x1303FFFFCE00002710 := by decide
/- the table's numbering: `CMD` is the low byte, `ADDR` follows, then `LEN` (log entry 23) -/
theorem test_decodeTableWord : decodeTableWord 72 0x00000020_03FFFFF0_12 = some (.read true 0x3FFFFF0 0x20) := by decide
theorem test_decodeTableWord_short : decodeTableWord 8 0x04 = some (.erase 0 0) := by decide

/-! ### WellFormed: each check refuses an ill-formed term -/

theorem test_wf_tc1 : tc1.wf = true := by decide
theorem test_wf_tc2 : tc2.wf = true := by decide
theorem test_wf_tiny : tiny.wf = true := by decide
theorem test_wf_refuses_window : Config.wf { tc2 with window := 0 } = false := by decide
theorem test_wf_refuses_total : Config.wf { tc2 with totalSize := 0 } = false := by decide
theorem test_wf_refuses_read_zero : Config.wf { tc2 with readGran := 0 } = false := by decide
theorem test_wf_refuses_prog_zero : Config.wf { tc2 with progGran := 0 } = false := by decide
theorem test_wf_refuses_erase_zero : Config.wf { tc2 with eraseGran := 0 } = false := by decide
theorem test_wf_refuses_read_gran : Config.wf { tc2 with readGran := 3 } = false := by decide
theorem test_wf_refuses_prog_gran : Config.wf { tc2 with progGran := 12 } = false := by decide
theorem test_wf_refuses_erase_gran : Config.wf { tc2 with eraseGran := 24, totalSize := 0x60 } = false := by decide
theorem test_wf_refuses_total_width : Config.wf { tc2 with aw := 7 } = false := by decide
theorem test_wf_refuses_short_block : Config.wf { tc2 with totalSize := 0x88 } = false := by decide
theorem test_wf_refuses_base : Config.wf { tc2 with paW := 12 } = false := by decide
theorem test_wf_refuses_poll : Config.wf { tc2 with pollLimit := 0 } = false := by decide
theorem test_wf_refuses_perr : Config.wf { tc2 with perrW := 0, openMismatchCode := 0 } = false := by decide
theorem test_wf_refuses_mismatch_zero : Config.wf { tc2 with openMismatchCode := 0 } = false := by decide
theorem test_wf_refuses_mismatch_wide : Config.wf { tc2 with openMismatchCode := 256 } = false := by decide
theorem test_instr_wf_read : (Instr.read true 32 0).wf tiny = false := by decide
theorem test_instr_wf_program : (Instr.program true 0 32).wf tiny = false := by decide
theorem test_instr_wf_erase : (Instr.erase 32 0).wf tiny = false := by decide
theorem test_instr_wf_write : (Instr.write true 0 32).wf tiny = false := by decide
theorem test_descriptor_fits_addr : Descriptor.fits tiny ⟨2, 32, 0⟩ = false := by decide
theorem test_descriptor_fits_len : Descriptor.fits tiny ⟨2, 0, 32⟩ = false := by decide

/-! ### Validation, translation, memory (spec/95, sections 2.1 and 2.2) -/

/- V-V1, V-V3, V-V10, V-V13 -/
theorem test_range_zero : validateRange tc1 0 0 = .ok := by decide
theorem test_range_past_end : validateRange tc1 0x8000001 0 = .invalidAddress := by decide
theorem test_range_no_wrap : validateRange tc1 0xFFFFFFFF 2 = .invalidAddress := by decide
theorem test_buffer_first : Ends (exec (.read false 0xFFFFFFFF 0xFFFFFFFF) (openState tc1 [] [] []))
    (fun t => t.hr = some (Response.status .invalidArgument 0) ∧ t.trace = []) = true := by decide
/- V-T4, V-T8 -/
theorem test_translate : translateBank tc1 0x4000100 = 1 ∧ translatePa tc1 0x4000100 = 0x10000100 ∧
    remainWindow tc1 0x4000100 = 0x3FFFF00 := by decide
theorem test_remain : remainPage tc1 0x1234 = 0xCC ∧ remainBlock tc1 0x1234 = 0xDCC ∧
    alignDownBlock tc1 0x1234 = 0x1000 := by decide
theorem test_memory_write : Memory.write [(1, 0x10), (3, 0x30)] 2 0x20 = [(1, 0x10), (2, 0x20), (3, 0x30)] := by decide
theorem test_memory_canonical : Memory.write [(1, 0x10), (3, 0x30)] 3 0xFF = [(1, 0x10)] := by decide

/-! ### One command each -/

/- V-L1 -/
theorem test_open : Ends (exec .openCmd (closedState tc1 [ok, ok, ok, ok, { ok with data := [0x40] }])) (fun t =>
    t.opened = true ∧ t.hr = some (Response.status .ok 0) ∧
      t.trace = [.peripheralOpen 0 0, .directWrite [0x06] 1 false 0, .directWrite [0x01, 0x40] 2 false 0,
        .directWrite [0x05] 1 true 0, .directRead 1 0 [0x40]]) = true := by decide
/- V-L8 -/
theorem test_open_mismatch : Ends (exec .openCmd (closedState tc1 [ok, ok, ok, ok, { ok with data := [0x00] }]))
    (fun t => t.opened = false ∧ t.hr = some (Response.status .deviceError 0xFF)) = true := by decide
/- V-L10 -/
theorem test_close_failure : Ends (exec .closeCmd (openState tc1 [fails 0x41] [] []))
    (fun t => t.opened = false ∧ t.trace = [.peripheralClose 0x41] ∧
      t.hr = some (Response.status .deviceError 0x41)) = true := by decide
/- V-L5 by its other name -/
theorem test_initCmd : Ends (exec .initCmd (closedState tc1 [ok, ok, fails 0x33])) (fun t =>
    t.opened = false ∧ t.hr = some (Response.status .deviceError 0x33) ∧ t.trace.length = 3) = true := by decide
/- V-L13 -/
theorem test_deinitCmd : Ends (exec .deinitCmd (openState tc1 [ok] [] []))
    (fun t => t.opened = false ∧ t.trace = [.peripheralClose 0] ∧ t.hr = some (Response.status .ok 0)) = true := by
  decide
/- P6, step 2 -/
theorem test_read : Ends
    (exec (.read true 0x3FFFFFC 8) (openState tc1 [ok, ok, ok, ok] [0xEE, 0xEE, 0xEE, 0xEE, 0xEE, 0xEE, 0xEE, 0xEE]
      [(0x3FFFFFC, 1), (0x3FFFFFD, 2), (0x3FFFFFE, 3), (0x3FFFFFF, 4), (0x4000000, 5), (0x4000001, 6), (0x4000002, 7),
        (0x4000003, 8)]))
    (fun t => t.hb = [1, 2, 3, 4, 5, 6, 7, 8] ∧ t.activeBank = 1 ∧ t.hr = some (Response.status .ok 0)) = true := by
  decide
/- P6, step 1 -/
theorem test_read_failure : Ends
    (exec (.read true 0x3FFFFFC 8) (openState tc1 [ok, ok, fails 7] [0xEE, 0xEE, 0xEE, 0xEE, 0xEE, 0xEE, 0xEE, 0xEE]
      [(0x3FFFFFC, 1), (0x3FFFFFD, 2), (0x3FFFFFE, 3), (0x3FFFFFF, 4)]))
    (fun t => t.hb = [1, 2, 3, 4, 0xEE, 0xEE, 0xEE, 0xEE] ∧ t.hr = some (Response.status .deviceError 7) ∧
      t.trace = [.bankSelect 0 0, .memRead 0x13FFFFFC 4 [1, 2, 3, 4], .bankSelect 1 7]) = true := by decide
/- P1, step 3 -/
theorem test_program : Ends
    (exec (.program true 0x3C 12) (openState tc2 [ok, ok, busy, ok, ok, ok, ok]
      [0x10, 0x11, 0x12, 0x13, 0x14, 0x15, 0x16, 0x17, 0x18, 0x19, 0x1A, 0x1B] []))
    (fun t => t.trace = [.bankSelect 0 0, .program [0x10, 0x11, 0x12, 0x13] 0x103C 4 0, .statusGet 0 true,
        .statusGet 0 false, .bankSelect 1 0, .program [0x14, 0x15, 0x16, 0x17, 0x18, 0x19, 0x1A, 0x1B] 0x1000 8 0,
        .statusGet 0 false] ∧
      t.flash.readRange 0x3B 14 = [0xFF, 0x10, 0x11, 0x12, 0x13, 0x14, 0x15, 0x16, 0x17, 0x18, 0x19, 0x1A, 0x1B, 0xFF])
    = true := by decide
/- V-W4 -/
theorem test_program_timeout : Ends
    (exec (.program true 0x7FFFFFF 1) (openState tc1 [ok, ok, busy, busy, busy, busy] [0x55] []))
    (fun t => t.hr = some (Response.status .timeout 0) ∧ t.inFlight.isSome = true ∧
      t.trace = [.bankSelect 1 0, .program [0x55] 0x13FFFFFF 1 0, .statusGet 0 true, .statusGet 0 true,
        .statusGet 0 true, .statusGet 0 true]) = true := by decide
/- V-W7 by its other name, its buffer cut to one byte -/
theorem test_write : Ends (exec (.write true 0 1) (openState tc1 [ok, ok, busy, { busy with status := 0x2A }] [0x55] []))
    (fun t => t.hr = some (Response.status .deviceError 0x2A) ∧
      t.trace = [.bankSelect 0 0, .program [0x55] 0x10000000 1 0, .statusGet 0 true, .statusGet 0x2A true]) = true := by
  decide
/- V-E6 -/
theorem test_erase : Ends (exec (.erase 0x3FFF000 0x2000) (openState tc1 [ok, ok, ok, ok, ok, ok] []
      [(0x3FFEFFF, 0), (0x3FFF000, 0), (0x4000FFF, 0), (0x4001000, 0)]))
    (fun t => t.trace = [.bankSelect 0 0, .eraseBlock 0x13FFF000 0x1000 0, .statusGet 0 false, .bankSelect 1 0,
        .eraseBlock 0x10000000 0x1000 0, .statusGet 0 false] ∧
      t.flash = [(0x3FFEFFF, 0), (0x4001000, 0)]) = true := by decide
/- V-E3: one block in `perGranule` mode, two in `overlap` mode; the counter ends at -0xFFE and -0xFFF -/
theorem test_erase_modes :
    Ends (exec (.erase 0xFFF 2) (openState tc1 [ok, ok, ok] [] [])) (fun t => t.regs.remaining = -0xFFE) = true ∧
    Ends (exec (.erase 0xFFF 2) (openState { tc1 with eraseMode := .overlap } [ok, ok, ok, ok, ok, ok] [] []))
      (fun t => t.regs.remaining = -0xFFF ∧ t.regs.cursor = 0x2000 ∧ countMutations t.trace = 2) = true := by decide
/- V-Q1 to V-Q5, V-Q7 -/
theorem test_size : Ends (exec .size State.reset) (fun t => t.hr = some ⟨.ok, 0, 0x08000000, []⟩) = true := by decide
theorem test_getReadSize : Ends (exec .getReadSize State.reset) (fun t => t.hr = some ⟨.ok, 0, 1, []⟩) = true := by
  decide
theorem test_getProgramSize : Ends (exec .getProgramSize State.reset) (fun t => t.hr = some ⟨.ok, 0, 0x100, []⟩) = true
    := by decide
theorem test_getEraseSize : Ends (exec .getEraseSize State.reset) (fun t => t.hr = some ⟨.ok, 0, 0x1000, []⟩) = true :=
  by decide
theorem test_getType : Ends (exec .getType State.reset)
    (fun t => t.hr = some ⟨.ok, 0, 0, [0x51, 0x53, 0x50, 0x49, 0x46, 0x4C, 0x41, 0x53, 0x48]⟩) = true := by decide

/-! ### Steps -/

/- V-Q6: the ignored fields hold ones -/
theorem test_step_size : Ends (step (State.reset.withFetchWord 72 0xFFFFFFFF_FFFFFFFF_15))
    (fun t => t.hr = some ⟨.ok, 0, 0x08000000, []⟩ ∧ t.hc = []) = true := by decide
/- V-D9 -/
theorem test_step_reserved : Ends (step (State.reset.withFetchWord 8 0x0A))
    (fun t => t.hr = some (Response.status .invalidArgument 0) ∧ t.trace = [] ∧ t.fsm = .idle) = true := by decide
/- R80: no descriptor carries an address of more than `AW` bits -/
theorem test_step_wide : step { State.resetOf tiny with hc := [⟨⟨2, 32, 0⟩, none⟩] } = .fault .descriptorTooWide := by
  rfl
/- R10, U13 -/
theorem test_step_bad_configuration : step (State.resetOf { tc2 with pollLimit := 0 }) = .refused .badConfiguration := by
  rfl
/- R243: a reset within a READ leaves no response, and the segment already copied in place -/
theorem test_step_reset : Ends (step { openState tiny [ok, ok, ok] [0, 0] [(7, 0x70), (8, 0x80)] with
      resets := [7], hc := [⟨⟨0x12, 7, 2⟩, none⟩] })
    (fun t => t.hr = none ∧ t.opened = false ∧ t.fsm = .idle ∧ t.hb = [0x70, 0] ∧ t.condition = .configured) = true := by
  decide

/- R258: a host that resets twice: the first reset, within a command, leaves the second to come -/
theorem test_step_second_reset : Ends (step { openState tiny [] [] [] with resets := [2, 2], hc := [⟨⟨0x14, 0, 4⟩, none⟩] })
    (fun t => t.hr = none ∧ t.resets = [2] ∧ t.trace = []) = true ∧
    Ends (step { openState tiny [] [] [] with resets := [0, 2], fsm := .resp })
      (fun t => t.opened = false ∧ t.resets = [2] ∧ t.fsm = .idle) = true := by decide
/- R243, R16: a reset between the two calls of H4: four calls made, no response, the block closed -/
theorem test_step_reset_in_readback :
    Ends (step { closedState tiny [ok, ok, ok, ok, { ok with data := [0x40] }] with
        resets := [6], hc := [⟨⟨0, 0, 0⟩, none⟩] })
      (fun t => t.trace.length = 4 ∧ t.hr = none ∧ t.opened = false ∧ t.fsm = .idle ∧ t.resets = []) = true := by decide
/- R87, R243: a reset after the visit of `S_CHECK` leaves a reserved encoding unanswered, one after `S_RESP` does not -/
theorem test_step_reset_reserved :
    Ends (step { openState tiny [] [] [] with resets := [2], hc := [⟨⟨0x0A, 0, 0⟩, none⟩] })
      (fun t => t.hr = none ∧ t.fsm = .idle ∧ t.hc = []) = true ∧
    Ends (step { openState tiny [] [] [] with resets := [3], hc := [⟨⟨0x32, 0, 0⟩, none⟩] })
      (fun t => t.hr = some (Response.status .invalidArgument 0) ∧ t.resets = [0]) = true := by decide
/- R203: OPEN and CLOSE that fail leave an idle device idle -/
theorem test_failed_lifecycle_idle :
    Ends (exec .openCmd (closedState tiny [{ ok with status := 7, busy := true }])) (fun t => t.inFlight = none) = true ∧
      Ends (exec .closeCmd (closedState tiny [{ ok with status := 7, busy := true }])) (fun t => t.inFlight = none) = true
    := by decide

/- the poll vectors V-P2, V-P3, V-P4, V-P6 (`POLL_LIMIT` 4): the samples taken and the counter left -/
abbrev polling (script : List Answer) : State :=
  { openState tc1 script [] [] with
    fsm := .poll, inFlight := some (.erase 0 1),
    regs := { Regs.reset with op := 4, pa := 0x10000000, segLen := 1, pollCnt := 4, remaining := 1 } }
theorem test_poll_ready : ((polling [busy, busy, ok]).ticks 3).fsm = .adv ∧
    ((polling [busy, busy, ok]).ticks 3).regs.pollCnt = 2 := by decide
theorem test_poll_timeout : ((polling [busy, busy, busy, busy]).ticks 4).fsm = .resp ∧
    ((polling [busy, busy, busy, busy]).ticks 4).regs.stKind = .timeout ∧
    ((polling [busy, busy, busy, busy]).ticks 4).regs.pollCnt = 0 := by decide
theorem test_poll_last_sample : ((polling [busy, busy, busy, ok]).ticks 4).fsm = .adv ∧
    ((polling [busy, busy, busy, ok]).ticks 4).regs.pollCnt = 1 := by decide
theorem test_poll_error_first : ((polling [{ ok with status := 0x2A }]).ticks 1).fsm = .resp ∧
    ((polling [{ ok with status := 0x2A }]).ticks 1).regs.stInfo = 0x2A ∧
    ((polling [{ ok with status := 0x2A }]).ticks 1).regs.pollCnt = 4 := by decide

/- R203: a sample with an error that found the device not busy leaves it not busy, whatever the oracle says -/
theorem test_poll_error_idle :
    ((polling [{ ok with status := 7, busy := true }]).ticks 1).inFlight = none ∧
      ((polling [{ ok with status := 7, settled := false }]).ticks 1).busy = true := by decide

/-! ### Witnesses: the hypotheses of every statement can be met together -/

/-- Sixteen bytes of host buffer. -/
abbrev buffer16 : List Byte := [0, 1, 2, 3, 4, 5, 6, 7, 8, 9, 10, 11, 12, 13, 14, 15]

/-- `tiny`, open and ready, every call a success and the device finished at once. -/
abbrev readyState : State := openState tiny (List.replicate 80 ok) buffer16 [(3, 0x33), (9, 0x99)]

/-- The same in `overlap` mode. -/
abbrev readyOverlap : State := { readyState with cfg := { tiny with eraseMode := .overlap } }

/-- `tiny`, open and ready, the device never finishing. -/
abbrev neverReady : State := openState tiny (List.replicate 8 busy) buffer16 []

theorem witness_PackedEncodingRoundTrips :
    tc1.wf = true ∧ (Instr.read true 0xFFFFFFFF 0xFFFFFFFF).wf tc1 = true ∧ (Instr.erase 0 0xFFFFFFFF).wf tc1 = true ∧
      (Instr.write false 0xFFFFFFFF 0).wf tc1 = true ∧ Instr.initCmd.wf tc1 = true := by decide

theorem witness_DecodedDescriptorReencodes :
    (decode ⟨0x12#8, 1, 2⟩ = .ok (.read true 1 2) ∧ (Instr.read true 1 2).opcode = 2) ∧
      (decode ⟨0x03#8, 1, 2⟩ = .ok (.program false 1 2) ∧ (Instr.program false 1 2).opcode = 3) ∧
      (decode ⟨0x14#8, 1, 2⟩ = .ok (.erase 1 2) ∧ (Instr.erase 1 2).opcode = 4) := by decide

/-- RemainingQuantitiesStayInRange, AlignDownGivesTheBlockOfAnAddress, GranulesNeverSpanTwoBanks,
CutSegmentsEndOnTheBoundary and ResetMeetsTheInvariant ask for a legal configuration only. -/
theorem witness_legal_configurations : tc1.wf = true ∧ tc2.wf = true ∧ tiny.wf = true := by decide

theorem witness_TranslationIsInvertible : tc1.wf = true ∧ 0 < tc1.totalSize ∧ 0x7FFFFFF < tc1.totalSize := by decide

/-- PollSampleTestsErrorThenBusyThenCounter: each of its four clauses, the counter at 1 in the third. -/
theorem witness_PollSampleTestsErrorThenBusyThenCounter :
    ((polling [fails 7]).fsm = .poll ∧ (polling [fails 7]).resets = [] ∧ (polling [fails 7]).nextStatus ≠ 0) ∧
      ((polling [ok]).nextStatus = 0 ∧ (polling [ok]).sampleBusy = false) ∧
      (let s := { polling [busy] with regs := { Regs.reset with pollCnt := 1 } }
       s.fsm = .poll ∧ s.resets = [] ∧ s.nextStatus = 0 ∧ s.sampleBusy = true ∧ s.regs.pollCnt = 1) ∧
      ((polling [busy]).nextStatus = 0 ∧ (polling [busy]).sampleBusy = true ∧ 1 < (polling [busy]).regs.pollCnt) := by
  decide

theorem witness_PollCountsItsSamples :
    (let s := polling [busy, busy, busy, busy]
     s.fsm = .poll ∧ s.resets = [] ∧ s.inFlight.isSome = true ∧ s.regs.pollCnt = 4 ∧
      ∀ k, k < 4 → (s.answer k).status % 2 ^ s.cfg.perrW = 0 ∧ (s.answer k).settled = false) ∧
    (let s := polling [busy, busy, busy, ok]
     s.inFlight.isSome = true ∧ s.regs.pollCnt = 4 ∧
      (∀ k, k < 3 → (s.answer k).status % 2 ^ s.cfg.perrW = 0 ∧ (s.answer k).settled = false) ∧
      (s.answer 3).status % 2 ^ s.cfg.perrW = 0 ∧ (s.answer 3).settled = true) := by decide

theorem witness_IdleDeviceStaysIdleUnderSamples : readyState.busy = false := by decide

theorem witness_OpenPerformsTheHandshake :
    let s := closedState tc1 [ok, ok, ok, ok, { ok with data := [0x40] }]
    s.quiet ∧ s.opened = false ∧ s.inFlight = none ∧ (∀ k, k < 5 → (s.answer k).status % 2 ^ s.cfg.perrW = 0) ∧
      Drawn.bytes ⟨s.answer 4, s.draws + 4⟩ s.cfg.srExpected.length = s.cfg.srExpected := by decide

theorem witness_RepeatedOpenIsANoOp : readyState.quiet ∧ readyState.opened = true := by decide

/-- OpenFailsFast: at its first call and at its last. -/
theorem witness_OpenFailsFast :
    (let s := closedState tc1 [fails 9]
     s.quiet ∧ s.opened = false ∧ (s.answer 0).status % 2 ^ s.cfg.perrW ≠ 0) ∧
    (let s := closedState tc1 [ok, ok, ok, ok, fails 9]
     s.quiet ∧ s.opened = false ∧ (∀ j, j < 4 → (s.answer j).status % 2 ^ s.cfg.perrW = 0) ∧
      (s.answer 4).status % 2 ^ s.cfg.perrW ≠ 0) := by decide

theorem witness_OpenReportsAMismatch :
    let s := closedState tc1 [ok, ok, ok, ok, { ok with data := [0x42] }]
    s.quiet ∧ s.opened = false ∧ (∀ k, k < 5 → (s.answer k).status % 2 ^ s.cfg.perrW = 0) ∧
      Drawn.bytes ⟨s.answer 4, s.draws + 4⟩ s.cfg.srExpected.length ≠ s.cfg.srExpected := by decide

/-- CloseClearsOpenedAndTearsDown and QueriesAnswerTheConfiguration ask for an idle block only, open or closed. -/
theorem witness_idle_block : State.reset.quiet ∧ readyState.quiet := by decide

theorem witness_OnlyOpenAndCloseChangeTheLifecycle :
    readyState.resets = [] ∧ (Instr.read true 0 9).opcode ≠ 0 ∧ (Instr.read true 0 9).opcode ≠ 1 ∧
      ∃ t, exec (.read true 0 9) readyState = .next t ∧ t.opened = true :=
  ⟨by decide, by decide, by decide, of_ends (by decide)⟩

/-- FailedValidationChangesNothing: its two clauses, the second one byte past the end. -/
theorem witness_FailedValidationChangesNothing :
    readyState.quiet ∧ 16 + 1 > readyState.cfg.totalSize ∧ ¬(16 + 0 > readyState.cfg.totalSize) := by decide

theorem witness_EraseOutOfRangeChangesNothing : readyState.quiet ∧ 16 + 1 > readyState.cfg.totalSize := by decide

theorem witness_ZeroLengthTransfersDoNothing : readyState.quiet ∧ 16 ≤ readyState.cfg.totalSize := by decide

/-- OnlyAShortBufferIsRefused: a buffer one byte short is refused, one of the length is not. -/
theorem witness_OnlyAShortBufferIsRefused :
    let s : State := { readyState with hb := [0] }
    s.fsm = .idle ∧ 0 + 2 ≤ s.cfg.totalSize ∧ s.hb.length < 2 ∧ exec (.read true 0 2) s = .refused .bufferTooShort ∧
      ∃ t, exec (.read true 0 1) s = .next t ∧ t.fsm = .idle :=
  ⟨by decide, by decide, by decide, rfl, of_ends (by decide)⟩

/-- ReadCopiesTheFlashIntoTheBuffer, ReadHasOneSegmentPerBank (across the bank boundary, and inside one bank). -/
theorem witness_ReadCopiesTheFlashIntoTheBuffer :
    readyState.cfg.wf = true ∧ readyState.quiet ∧ readyState.ready = true ∧
      readyState.allSucceed (callBound readyState.cfg 9) ∧ 0 < 9 ∧ 7 + 9 ≤ readyState.cfg.totalSize ∧
      9 ≤ readyState.hb.length ∧ (7 + 9 - 1) / readyState.cfg.window ≠ 7 / readyState.cfg.window ∧
      (0 + 8 - 1) / readyState.cfg.window = 0 / readyState.cfg.window := by decide

theorem witness_FailedReadLeavesAPrefixOfSegments :
    let s := openState tiny [ok, ok, fails 7] buffer16 [(3, 0x33)]
    s.cfg.wf = true ∧ s.quiet ∧ s.ready = true ∧
      ∃ t, exec (.read true 7 9) s = .next t ∧ Prim.bankSelect 1 7 ∈ t.trace ∧ 7 ≠ 0 :=
  ⟨by decide, by decide, by decide, of_ends (by decide)⟩

theorem witness_ReadFrame :
    readyState.cfg.wf = true ∧ readyState.quiet ∧ readyState.ready = true ∧
      ∃ t, exec (.read true 7 9) readyState = .next t ∧ t.trace.length = 4 :=
  ⟨by decide, by decide, by decide, of_ends (by decide)⟩

/-- ProgramWritesTheErasedBytes: two pages, the byte at 3 not erased. -/
theorem witness_ProgramWritesTheErasedBytes :
    readyState.cfg.wf = true ∧ readyState.quiet ∧ readyState.ready = true ∧ readyState.flash.wf ∧
      readyState.allSucceed (callBound readyState.cfg 5) ∧ readyState.healthy (callBound readyState.cfg 5) ∧
      3 + 5 ≤ readyState.cfg.totalSize ∧ 5 ≤ readyState.hb.length ∧ readyState.flash.read 4 = erasedByte ∧
      readyState.flash.read 3 ≠ erasedByte := by decide

theorem witness_ProgramFrame :
    readyState.cfg.wf = true ∧ readyState.quiet ∧ readyState.ready = true ∧ readyState.flash.wf ∧
      (∃ t, exec (.program true 3 5) readyState = .next t ∧ t.trace.length = 6) ∧
      ∃ t, exec (.write false 3 5) readyState = .next t ∧ t.trace = [] :=
  ⟨by decide, by decide, by decide, by decide, of_ends (by decide), of_ends (by decide)⟩

/-- ProgramPollsEverySegment, ProgramHasOneSegmentPerPage (two pages, the first cut), OkLeavesNothingInFlight. -/
theorem witness_ProgramPollsEverySegment :
    readyState.cfg.wf = true ∧ readyState.quiet ∧ readyState.inFlight = none ∧ 0 < 5 ∧ 3 + 5 ≤ readyState.cfg.totalSize ∧
      (∃ t, exec (.program true 3 5) readyState = .next t ∧ t.hr.map (·.kind) = some .ok) ∧
      (∃ t, exec (.write true 3 5) readyState = .next t ∧ t.hr.map (·.kind) = some .ok) ∧
      ∃ t, exec (.erase 3 5) readyState = .next t ∧ t.hr.map (·.kind) = some .ok :=
  ⟨by decide, by decide, by decide, by decide, by decide, of_ends (by decide), of_ends (by decide), of_ends (by decide)⟩

/-- SplitProgramIsTransparent: the first part answers Ok, and it does not. -/
theorem witness_SplitProgramIsTransparent :
    readyState.cfg.wf = true ∧ readyState.quiet ∧ (3 + 1) % readyState.cfg.progGran = 0 ∧
      3 + (1 + 4) ≤ readyState.cfg.totalSize ∧ (∃ t, exec (.program true 3 (1 + 4)) readyState = .next t ∧ True) ∧
      (∃ t, exec (.program true 3 1) readyState = .next t ∧ t.hr = some (Response.status .ok 0)) ∧
      ∃ t, exec (.program true 3 1) neverReady = .next t ∧ t.hr ≠ some (Response.status .ok 0) :=
  ⟨by decide, by decide, by decide, by decide, of_ends (by decide), of_ends (by decide), of_ends (by decide)⟩

theorem witness_EraseClearsWholeBlocks :
    readyState.cfg.wf = true ∧ readyState.cfg.eraseMode = .perGranule ∧ readyState.quiet ∧ readyState.ready = true ∧
      readyState.allSucceed (callBound readyState.cfg 5) ∧ readyState.healthy (callBound readyState.cfg 5) ∧
      3 + 5 ≤ readyState.cfg.totalSize := by decide

theorem witness_OverlapEraseClearsOverlappingBlocks :
    readyOverlap.cfg.wf = true ∧ readyOverlap.cfg.eraseMode = .overlap ∧ readyOverlap.quiet ∧ readyOverlap.ready = true ∧
      readyOverlap.allSucceed (callBound readyOverlap.cfg 2) ∧ readyOverlap.healthy (callBound readyOverlap.cfg 2) ∧
      0 < 2 ∧ 3 + 2 ≤ readyOverlap.cfg.totalSize := by decide

theorem witness_EraseModesAgreeOnAlignedRequests :
    readyState.cfg.wf = true ∧ readyState.cfg.eraseGran ∣ 4 ∧ readyState.cfg.eraseGran ∣ 8 := by decide

/-- EraseFrame in each mode: of `ERASE 3, 2` the first covers block 0 only, the second blocks 0 and 4. -/
theorem witness_EraseFrame :
    readyState.cfg.wf = true ∧ readyState.quiet ∧ readyState.ready = true ∧ readyState.flash.wf ∧
      (∃ t, exec (.erase 3 2) readyState = .next t ∧ t.trace.length = 3) ∧
      eraseEnd readyState.cfg 3 2 = 4 ∧ eraseEnd readyOverlap.cfg 3 2 = 8 ∧ readyOverlap.cfg.wf = true ∧ ∃ t, exec (.erase 3 2) readyOverlap = .next t ∧ t.trace.length = 6 :=
  ⟨by decide, by decide, by decide, by decide, of_ends (by decide), by decide, by decide, by decide, of_ends (by decide)⟩

theorem witness_DeviceThatNeverFinishesTimesOut :
    neverReady.cfg.wf = true ∧ neverReady.quiet ∧ neverReady.ready = true ∧
      neverReady.allSucceed (neverReady.cfg.pollLimit + 2) ∧
      (∀ k, k < neverReady.cfg.pollLimit + 2 → (neverReady.answer k).settled = false) ∧ 0 < 5 ∧
      9 + 5 ≤ neverReady.cfg.totalSize ∧ 5 ≤ neverReady.hb.length := by decide

/-- EraseProgramReadRoundTrips: one block erased, two bytes of it programmed and read. -/
theorem witness_EraseProgramReadRoundTrips :
    readyState.cfg.wf = true ∧ readyState.quiet ∧ readyState.ready = true ∧ readyState.flash.wf ∧
      readyState.allSucceed (callBound readyState.cfg (4 + 2 * 2)) ∧
      readyState.healthy (callBound readyState.cfg (4 + 2 * 2)) ∧ readyState.cfg.eraseGran ∣ 8 ∧
      readyState.cfg.eraseGran ∣ 4 ∧ 8 + 4 ≤ readyState.cfg.totalSize ∧ 8 ≤ 9 ∧
      9 + [0x12#8, 0x34#8].length ≤ 8 + 4 ∧ [0#8, 0#8].length = [0x12#8, 0x34#8].length := by decide

/-- EveryCommandEndsWithItsResponse, and a transfer on a closed block among them. -/
theorem witness_EveryCommandEndsWithItsResponse :
    readyState.cfg.wf = true ∧ readyState.quiet ∧ readyState.bufferFits (.program true 0 16) = true ∧
      (closedState tiny []).quiet ∧ (closedState tiny []).bufferFits (.erase 0 16) = true := by decide

/-- ErrorsReportTheFirstFailure: a DeviceError, and a Timeout. -/
theorem witness_ErrorsReportTheFirstFailure :
    (openState tiny [ok, fails 7] buffer16 []).quiet ∧
      (∃ t, exec (.program true 0 4) (openState tiny [ok, fails 7] buffer16 []) = .next t ∧
        t.hr = some (Response.status .deviceError 7)) ∧
      ∃ t, exec (.program true 0 4) neverReady = .next t ∧ t.hr = some (Response.status .timeout 0) :=
  ⟨by decide, of_ends (by decide), of_ends (by decide)⟩

/-- PrimitiveArgumentsAreLegal, CommandsCallTheirPrimitivesInOrder (OPEN on an open block among them),
CommandsChangeOnlyTheirRegisters (ERASE, READ and a query). -/
theorem witness_CommandsCallTheirPrimitivesInOrder :
    readyState.cfg.wf = true ∧ readyState.resets = [] ∧
      (∃ t, exec (.erase 3 5) readyState = .next t ∧ t.trace.length = 6) ∧
      (∃ t, exec (.read true 3 5) readyState = .next t ∧ t.trace.length = 2) ∧
      (readyState.opened = true ∧ ∃ t, exec .openCmd readyState = .next t ∧ True) ∧
      (∃ t, exec .getType readyState = .next t ∧ True) ∧
      decode ⟨0x2A, 0, 0⟩ = .error .reservedBits ∧ ∃ t, runDescriptor ⟨0x2A, 0, 0⟩ readyState = .next t ∧ t.fsm = .idle :=
  ⟨by decide, by decide, of_ends (by decide), of_ends (by decide), ⟨by decide, of_ends (by decide)⟩, of_ends (by decide),
    by decide, of_ends (by decide)⟩

/-- WorkingRegistersAreEphemeral, StepsKeepTheConfiguration and ReadGranularityEntersNoTransfer. -/
theorem witness_WorkingRegistersAreEphemeral :
    readyState.cfg.wf = true ∧ readyState.resets = [] ∧ Instr.read true 0 9 ≠ .getReadSize ∧
      ∃ t, step (readyState.withFetchWord 8 0x05) = .next t ∧ True :=
  ⟨by decide, by decide, by decide, of_ends (by decide)⟩

/-- A READ of nine bytes offered on port HC with its buffer, and a query behind it. -/
abbrev offering : State := { readyState with hc := [⟨⟨0x12, 7, 9⟩, some buffer16⟩, ⟨⟨0x05, 0, 0⟩, none⟩] }

theorem witness_StepRunsTheDecodedCommand :
    offering.cfg.wf = true ∧ offering.fsm = .idle ∧ offering.resets.head? ≠ some 0 ∧
      offering.hc = ⟨⟨0x12, 7, 9⟩, some buffer16⟩ :: [⟨⟨0x05, 0, 0⟩, none⟩] ∧
      Descriptor.fits offering.cfg ⟨0x12, 7, 9⟩ = true ∧ decode ⟨0x12, 7, 9⟩ = .ok (.read true 7 9) := by decide

/-- StepGoesOnOrWaits: inside a command, and idle with nothing offered. -/
theorem witness_StepGoesOnOrWaits :
    ((polling [busy]).cfg.wf = true ∧ (polling [busy]).resets = [] ∧ (polling [busy]).fsm ≠ .idle) ∧
      (readyState.cfg.wf = true ∧ readyState.resets = [] ∧ readyState.fsm = .idle ∧ readyState.hc = []) := by decide

/-- SequencerFollowsItsTable: a READ and an ERASE in `S_XFER`, and a poll. -/
theorem witness_SequencerFollowsItsTable :
    (let s : State := { readyState with fsm := .xfer, regs := { Regs.reset with op := 2 } }
     s.resets = [] ∧ s.fsm ≠ .idle ∧ s.fsm = .xfer ∧ s.regs.op = 2) ∧
    (let s : State := { readyState with fsm := .xfer, regs := { Regs.reset with op := 4 } }
     s.resets = [] ∧ s.fsm = .xfer ∧ s.regs.op ≠ 2) ∧
    ((polling [busy]).resets = [] ∧ (polling [busy]).fsm ≠ .idle) := by decide

/-- StepAnswersReservedEncodings: no reset, and one on each side of the boundary (`k` 1 and 2). -/
theorem witness_StepAnswersReservedEncodings :
    (let s : State := { readyState with hc := [⟨⟨0x0A, 0, 0⟩, none⟩] }
     s.cfg.wf = true ∧ s.fsm = .idle ∧ s.hc = ⟨⟨0x0A, 0, 0⟩, none⟩ :: [] ∧ Descriptor.fits s.cfg ⟨0x0A, 0, 0⟩ = true ∧
      decode ⟨0x0A, 0, 0⟩ = .error .reservedOpcode ∧ s.resets = []) ∧
    (let s : State := { readyState with hc := [⟨⟨0x0A, 0, 0⟩, none⟩], resets := [2, 9] }
     s.cfg.wf = true ∧ s.fsm = .idle ∧ s.resets = (1 + 1) :: [9] ∧ 1 < 2) ∧
    (let s : State := { readyState with hc := [⟨⟨0x0A, 0, 0⟩, none⟩], resets := [3, 9] }
     s.cfg.wf = true ∧ s.fsm = .idle ∧ s.resets = (2 + 1) :: [9] ∧ 2 ≤ 2) := by decide

theorem witness_ResetAbandonsTheCommand :
    let s : State := { polling [busy] with resets := [0, 3] }
    s.cfg.wf = true ∧ s.resets = 0 :: [3] ∧ s.fsm ≠ .idle := by decide

/-- ResetDuringACommandLeavesNoResponse: SIZE takes two sequencer steps, so a reset after one abandons it (`k < n`) and
one after two does not (`n ≤ k`). -/
theorem witness_ResetDuringACommandLeavesNoResponse :
    (let s : State := { readyState with resets := [1, 4] }
     s.cfg.wf = true ∧ s.fsm = .idle ∧ s.resets = 1 :: [4] ∧ s.bufferFits .size = true ∧
      Ends (exec .size s) (fun t => t.hr = none ∧ t.fsm = .idle ∧ t.resets = [4]) = true) ∧
    (let s : State := { readyState with resets := [2, 4] }
     s.resets = 2 :: [4] ∧ Ends (exec .size s) (fun t => t.hr.isSome = true ∧ t.resets = [0, 4]) = true) ∧
    (let a := readyState.accept (Instr.size.load readyState.regs)
     (a.ticks 2).fsm = .idle ∧ (a.ticks 1).fsm ≠ .idle ∧ (a.ticks 0).fsm ≠ .idle) := by decide

/-- A READ about to copy its segment: bank 0, one byte to the bank's end, eight bytes left after it. -/
abbrev copying : State :=
  { readyState with
    fsm := .xfer
    regs := { Regs.reset with
      op := 2, bufValid := true, addr := 7, len := 9, cursor := 7, remaining := 9, segLen := 1, pa := 0x27 } }

theorem copying_loopOk : copying.loopOk := by constructor <;> decide

/-- StepsKeepTheInvariant and SegmentFitsItsBankAndGranule, inside the segment loop; and the step goes on. -/
theorem witness_StepsKeepTheInvariant :
    copying.Inv ∧ copying.fsm = .xfer ∧ ∃ t, step copying = .next t ∧ t.fsm = .adv :=
  ⟨⟨by decide, by decide, by decide, by decide, by decide, by decide, by unfold Regs.fits; decide, copying_loopOk⟩,
    by decide, of_ends (by decide)⟩

/-- OnlyAProgramOrAnEraseMakesTheDeviceBusy, its four clauses: a READ in `S_XFER` of an idle device, a PROGRAM there that
is accepted, a sample with an error that finds the device not busy, and a command that is no PROGRAM or ERASE. -/
theorem witness_OnlyAProgramOrAnEraseMakesTheDeviceBusy :
    (copying.inFlight = none ∧ copying.regs.op = 2 ∧ (copying.fsm ≠ .xfer ∨ copying.regs.op = 2)) ∧
    (let s : State := { copying with regs := { copying.regs with op := 3 } }
     s.ready = true ∧ s.fsm = .xfer ∧ s.regs.op ≠ 2 ∧ s.nextStatus = 0 ∧ s.resets.head? ≠ some 0) ∧
    (let s := polling [{ ok with status := 7, busy := true }]
     s.fsm = .poll ∧ s.resets.head? ≠ some 0 ∧ s.sampleBusy = false ∧ s.nextStatus ≠ 0) ∧
    (readyState.inFlight = none ∧ Instr.closeCmd.opcode ≠ 3 ∧ Instr.closeCmd.opcode ≠ 4 ∧
      Ends (exec .closeCmd readyState) (fun t => t.inFlight = none) = true) := by decide

/-- EarlierSegmentsAreNotUndone: an ERASE and a PROGRAM whose second segment fails, one segment complete. -/
theorem witness_EarlierSegmentsAreNotUndone :
    (let s := openState tiny [ok, ok, ok, ok, fails 7] buffer16 [(3, 0x33), (9, 0x99)]
     s.cfg.wf = true ∧ s.quiet ∧ s.ready = true ∧ s.flash.wf ∧
      Ends (exec (.erase 0 8) s) (fun t => countCompleted t.trace = 1 ∧ t.hr = some (Response.status .deviceError 7)) = true) ∧
    (let s := openState tiny [ok, ok, ok, ok, fails 7] buffer16 []
     s.ready = true ∧ s.flash.wf ∧ s.flash.read 2 = erasedByte ∧
      Ends (exec (.program true 2 4) s) (fun t => countCompleted t.trace = 1 ∧
        t.hr = some (Response.status .deviceError 7)) = true) := by decide

end Sys2Proof.Tests
end

section
/-! Settling the statements of spec/10_state.md, layer 1: the ways out of every sequencer state (R23), gathered in one
relation. Each fact about all visits is a case analysis of it. -/

namespace Sys2Proof.Machine

/-! ### The visits whose ways out have no lemma yet -/

theorem visitHsOpen_cases (s : State) :
    (s.nextStatus = 0 ∧ s.visitHsOpen = s.peripheralOpen.goto .hsWren) ∨
    (s.nextStatus ≠ 0 ∧ s.visitHsOpen = s.peripheralOpen.raise .deviceError s.nextStatus) := by
  by_cases h : s.nextStatus = 0 <;> simp [State.visitHsOpen, h]

theorem visitHsWren_cases (s : State) :
    (s.nextStatus = 0 ∧ s.visitHsWren = (s.directWrite [s.cfg.cmdWren] false).goto .hsWrsr) ∨
    (s.nextStatus ≠ 0 ∧
      s.visitHsWren = (s.directWrite [s.cfg.cmdWren] false).raise .deviceError s.nextStatus) := by
  by_cases h : s.nextStatus = 0 <;> simp [State.visitHsWren, h]

theorem visitHsWrsr_cases (s : State) :
    (s.nextStatus = 0 ∧
      s.visitHsWrsr = (s.directWrite (s.cfg.cmdWrsr :: s.cfg.srExpected) false).goto .hsRdbk) ∨
    (s.nextStatus ≠ 0 ∧ s.visitHsWrsr =
      (s.directWrite (s.cfg.cmdWrsr :: s.cfg.srExpected) false).raise .deviceError s.nextStatus) := by
  by_cases h : s.nextStatus = 0 <;> simp [State.visitHsWrsr, h]

theorem visitClose_cases (s : State) :
    (s.nextStatus = 0 ∧ s.visitClose = { s with opened := false }.peripheralClose.goto .resp) ∨
    (s.nextStatus ≠ 0 ∧
      s.visitClose = { s with opened := false }.peripheralClose.raise .deviceError s.nextStatus) := by
  by_cases h : s.nextStatus = 0 <;> simp [State.visitClose, h]

/-! ### The ways out of a sequencer state -/

/-- The primitive call of a sequencer state whose success only moves the sequencer on: the state the call leaves and
the sequencer state that follows. -/
inductive State.Calls (s : State) : State → Fsm → Prop
  | bank   : s.fsm = .bank → Calls s (s.bankSelect s.regs.bank) .seg
  | hsOpen : s.fsm = .hsOpen → Calls s s.peripheralOpen .hsWren
  | hsWren : s.fsm = .hsWren → Calls s (s.directWrite [s.cfg.cmdWren] false) .hsWrsr
  | hsWrsr : s.fsm = .hsWrsr → Calls s (s.directWrite (s.cfg.cmdWrsr :: s.cfg.srExpected) false) .hsRdbk
  | hsRdbk : s.fsm = .hsRdbk → Calls s (s.directWrite [s.cfg.cmdRdsr] true) .hsRead
  | close  : s.fsm = .close → Calls s { s with opened := false }.peripheralClose .resp

/-- The `program` or `erase_block` call of `S_XFER`: the state it leaves. -/
inductive State.Mutates (s : State) : State → Prop
  | program : s.regs.op = 3 →
      Mutates s (s.program (bufRead s.hb s.regs.bufOff s.regs.segLen) s.regs.pa s.regs.segLen)
  | erase   : s.regs.op ≠ 3 → Mutates s (s.eraseBlock s.regs.pa s.regs.segLen)

/-- R110, R111, R211: the kinds `S_CHECK` rejects a command with. -/
def State.Rejected (s : State) (k : Kind) : Prop :=
  (k = .invalidArgument ∧
    ((s.regs.op = 2 ∨ s.regs.op = 3) ∧ s.regs.bufValid = false ∨ 10 ≤ s.regs.op.toNat)) ∨
  (k = .invalidAddress ∧ (s.regs.op = 2 ∨ s.regs.op = 3 ∨ s.regs.op = 4) ∧
    s.cfg.totalSize < s.regs.addr + s.regs.len)

/-- R180 to R183: the value each query answers, by its opcode. -/
def queryValues (c : Config) : List (Opcode × Nat) :=
  [(5, c.totalSize), (6, c.readGran), (7, c.progGran), (8, c.eraseGran)]

/-- R23: the ways out of a sequencer state. `Exit s t` says that a visit leads from `s` to `t`, and when. -/
inductive State.Exit (s : State) : State → Prop
  | waits : s.fsm = .idle → Exit s s
  -- S_CHECK
  | lifecycle (f : Fsm) :
      s.fsm = .check → (s.regs.op = 0 ∧ f = (if s.opened then .resp else .hsOpen) ∨ s.regs.op = 1 ∧ f = .close) →
      Exit s ({ s with regs := s.regs.clearLatch }.goto f)
  | rejects (k : Kind) : s.fsm = .check → s.Rejected k → Exit s ({ s with regs := s.regs.clearLatch }.raise k 0)
  | loads :
      s.fsm = .check → s.regs.op = 2 ∨ s.regs.op = 3 → s.regs.addr + s.regs.len ≤ s.cfg.totalSize →
      Exit s { s with
        regs := { s.regs.clearLatch with cursor := s.regs.addr, bufOff := 0, remaining := (s.regs.len : Int) }
        fsm := if s.regs.len = 0 then .resp else .xlate }
  | loadsErase :
      s.fsm = .check → s.regs.op = 4 → s.regs.addr + s.regs.len ≤ s.cfg.totalSize →
      Exit s { s with
        regs := { s.regs.clearLatch with cursor := eraseStart s.cfg s.regs.addr, remaining := (s.regs.len : Int) }
        fsm := if s.regs.len = 0 then .resp else .xlate }
  | answers (v : Nat) :
      s.fsm = .check → (s.regs.op, v) ∈ queryValues s.cfg →
      Exit s ({ s with regs := s.regs.clearLatch }.answerValue v)
  | answersType : s.fsm = .check → s.regs.op = 9 → Exit s ({ s with regs := s.regs.clearLatch }.goto .resp)
  -- the segment loop
  | translates : s.fsm = .xlate → Exit s s.visitXlate
  | measures : s.fsm = .seg → Exit s s.visitSeg
  | copies : s.fsm = .xfer → s.regs.op = 2 → Exit s s.xferRead
  | issues (t : State) : s.fsm = .xfer → s.regs.op ≠ 2 → s.Mutates t → s.nextStatus = 0 → Exit s t.startPoll
  | issueFails (t : State) :
      s.fsm = .xfer → s.regs.op ≠ 2 → s.Mutates t → s.nextStatus ≠ 0 → Exit s (t.raise .deviceError s.nextStatus)
  | pollFails :
      s.fsm = .poll → s.nextStatus ≠ 0 →
      Exit s ((s.statusGet.spoil s.sampleBusy s.drawn (s.statusGet.deviceAddress s.regs.pa) s.regs.segLen).raise
        .deviceError s.nextStatus)
  | completes : s.fsm = .poll → s.nextStatus = 0 → s.sampleBusy = false → Exit s (s.statusGet.goto .adv)
  | timesOut :
      s.fsm = .poll → s.nextStatus = 0 → s.sampleBusy = true → s.regs.pollCnt ≤ 1 →
      Exit s (({ s.statusGet with regs := { s.regs with pollCnt := s.regs.pollCnt - 1 } }.late s.drawn).raise .timeout 0)
  | pollsAgain :
      s.fsm = .poll → s.nextStatus = 0 → s.sampleBusy = true → 1 < s.regs.pollCnt →
      Exit s { s.statusGet with regs := { s.regs with pollCnt := s.regs.pollCnt - 1 } }
  | advances : s.fsm = .adv → Exit s s.visitAdv
  -- calls, OPEN and CLOSE, the response
  | called (t : State) (f : Fsm) : s.Calls t f → s.nextStatus = 0 → Exit s (t.goto f)
  | callFails (t : State) (f : Fsm) : s.Calls t f → s.nextStatus ≠ 0 → Exit s (t.raise .deviceError s.nextStatus)
  | readBackFails :
      s.fsm = .hsRead → s.nextStatus ≠ 0 →
      Exit s ((s.directRead s.cfg.srExpected.length).raise .deviceError s.nextStatus)
  | mismatches :
      s.fsm = .hsRead → s.nextStatus = 0 → s.directReadBytes s.cfg.srExpected.length ≠ s.cfg.srExpected →
      Exit s ((s.directRead s.cfg.srExpected.length).raise .deviceError s.cfg.openMismatchCode)
  | opens :
      s.fsm = .hsRead → s.nextStatus = 0 → s.directReadBytes s.cfg.srExpected.length = s.cfg.srExpected →
      Exit s { s.directRead s.cfg.srExpected.length with opened := true, condition := .configured, fsm := .resp }
  | responds : s.fsm = .resp → Exit s s.respond

theorem visitCheck_exit {s : State} (hf : s.fsm = .check) : s.Exit s.visitCheck := by
  rcases visitCheck_cases s with ⟨h, e⟩ | ⟨h, e⟩ | ⟨h, e⟩ | ⟨h, e⟩ | ⟨h, e⟩ | ⟨h, e⟩ | ⟨h, e⟩ | ⟨h, e⟩ | ⟨h, e⟩ | ⟨h, e⟩ <;>
    rw [e]
  · exact .lifecycle _ hf (.inl ⟨h, rfl⟩)
  · exact .lifecycle _ hf (.inr ⟨h, rfl⟩)
  · rcases checkBuffer_cases { s with regs := s.regs.clearLatch } with ⟨hb, e⟩ | ⟨-, hr, e⟩ | ⟨-, hr, e⟩ <;> rw [e]
    · exact .rejects _ hf (.inl ⟨rfl, .inl ⟨h, hb⟩⟩)
    · exact .rejects _ hf (.inr ⟨rfl, or_assoc.1 (.inl h), hr⟩)
    · exact .loads hf h hr
  · rcases checkErase_cases { s with regs := s.regs.clearLatch } with ⟨hr, e⟩ | ⟨hr, e⟩ <;> rw [e]
    · exact .rejects _ hf (.inr ⟨rfl, .inr (.inr h), hr⟩)
    · exact .loadsErase hf h hr
  · exact .answers _ hf (by simp [queryValues, h])
  · exact .answers _ hf (by simp [queryValues, h])
  · exact .answers _ hf (by simp [queryValues, h])
  · exact .answers _ hf (by simp [queryValues, h])
  · exact .answersType hf h
  · exact .rejects _ hf (.inl ⟨rfl, .inr h⟩)

/-- `S_XFER` of a PROGRAM or an ERASE is a call of its primitive, and the poll if it succeeds. -/
theorem visitXfer_mutates {s : State} (hop : s.regs.op ≠ 2) :
    ∃ t, s.Mutates t ∧ (s.nextStatus = 0 ∧ s.visitXfer = t.startPoll ∨
      s.nextStatus ≠ 0 ∧ s.visitXfer = t.raise .deviceError s.nextStatus) := by
  rcases visitXfer_cases s with ⟨h2, -⟩ | ⟨-, t, ⟨h3, rfl⟩ | ⟨h3, rfl⟩, he⟩
  · exact absurd h2 hop
  · exact ⟨_, .program h3, he⟩
  · exact ⟨_, .erase h3, he⟩

theorem visitXfer_exit {s : State} (hf : s.fsm = .xfer) : s.Exit s.visitXfer := by
  by_cases hop : s.regs.op = 2
  · simpa [State.visitXfer, hop] using State.Exit.copies hf hop
  · obtain ⟨t, hm, ⟨h0, e⟩ | ⟨h0, e⟩⟩ := visitXfer_mutates hop <;> rw [e]
    · exact .issues t hf hop hm h0
    · exact .issueFails t hf hop hm h0

theorem visitPoll_exit {s : State} (hf : s.fsm = .poll) : s.Exit s.visitPoll := by
  rcases visitPoll_cases s with ⟨h0, e⟩ | ⟨h0, hb, e⟩ | ⟨h0, hb, hc, e⟩ | ⟨h0, hb, hc, e⟩ <;> rw [e]
  · exact .pollFails hf h0
  · exact .completes hf h0 hb
  · simpa using State.Exit.timesOut hf h0 hb hc
  · simpa using State.Exit.pollsAgain hf h0 hb hc

theorem visitHsRead_exit {s : State} (hf : s.fsm = .hsRead) : s.Exit s.visitHsRead := by
  rcases visitHsRead_cases s with ⟨h0, e⟩ | ⟨h0, hv, e⟩ | ⟨h0, hv, e⟩ <;> rw [e]
  · exact .readBackFails hf h0
  · exact .opens hf h0 hv
  · exact .mismatches hf h0 hv

/-- A visit that is a call and its outcome is a way out. -/
theorem State.Calls.exit {s t v : State} {f : Fsm} (hc : s.Calls t f)
    (h : (s.nextStatus = 0 ∧ v = t.goto f) ∨ (s.nextStatus ≠ 0 ∧ v = t.raise .deviceError s.nextStatus)) :
    s.Exit v := by
  rcases h with ⟨h0, rfl⟩ | ⟨h0, rfl⟩
  · exact .called t f hc h0
  · exact .callFails t f hc h0

/-- Every visit takes one of the ways out. -/
theorem visit_exit (s : State) : s.Exit s.visit := by
  unfold State.visit
  split <;> rename_i hf
  · exact .waits hf
  · exact visitCheck_exit hf
  · exact .translates hf
  · exact (State.Calls.bank hf).exit (visitBank_cases s)
  · exact .measures hf
  · exact visitXfer_exit hf
  · exact visitPoll_exit hf
  · exact .advances hf
  · exact (State.Calls.hsOpen hf).exit (visitHsOpen_cases s)
  · exact (State.Calls.hsWren hf).exit (visitHsWren_cases s)
  · exact (State.Calls.hsWrsr hf).exit (visitHsWrsr_cases s)
  · exact (State.Calls.hsRdbk hf).exit (visitHsRdbk_cases s)
  · exact visitHsRead_exit hf
  · exact (State.Calls.close hf).exit (visitClose_cases s)
  · exact .responds hf

end Sys2Proof.Machine
end

section
/-! Layer 2: what every visit keeps, as facts about the ways out of a sequencer state. -/

namespace Sys2Proof.Machine

/-! ### What the calls keep -/

theorem State.Mutates.regs {s t : State} (h : s.Mutates t) : t.regs = s.regs := by
  cases h <;> simp

theorem State.Mutates.cfg {s t : State} (h : s.Mutates t) : t.cfg = s.cfg := by
  cases h <;> simp

theorem State.Mutates.opened {s t : State} (h : s.Mutates t) : t.opened = s.opened := by
  cases h <;> simp

theorem State.Mutates.condition {s t : State} (h : s.Mutates t) : t.condition = s.condition := by
  cases h <;> simp

theorem State.Mutates.draws {s t : State} (h : s.Mutates t) : t.draws = s.draws + 1 := by
  cases h <;> simp

theorem State.Calls.regs {s t : State} {f : Fsm} (h : s.Calls t f) : t.regs = s.regs := by
  cases h <;> simp

theorem State.Calls.cfg {s t : State} {f : Fsm} (h : s.Calls t f) : t.cfg = s.cfg := by
  cases h <;> simp

theorem State.Calls.draws {s t : State} {f : Fsm} (h : s.Calls t f) : t.draws = s.draws + 1 := by
  cases h <;> simp

/-- The operands are read where the command is checked and written nowhere (R25). -/
def Regs.operands (r : Regs) : Opcode × Bool × Nat × Nat := (r.op, r.bufValid, r.addr, r.len)

theorem State.Exit.operands {s t : State} (h : s.Exit t) : t.regs.operands = s.regs.operands := by
  cases h
  case issues hm _ => simp [Regs.operands, hm.regs]
  case issueFails hm _ => simp [Regs.operands, hm.regs, Regs.latch]
  case called hc _ => simp [Regs.operands, hc.regs]
  case callFails hc _ => simp [Regs.operands, hc.regs, Regs.latch]
  all_goals simp [Regs.operands, Regs.latch, Regs.clearLatch, State.visitXlate, State.visitSeg,
    State.xferRead, State.visitAdv]

theorem State.Exit.op {s t : State} (h : s.Exit t) : t.regs.op = s.regs.op := congrArg Prod.fst h.operands

/-! ### The sequencer's table (R23) -/

theorem State.Calls.successors {s t : State} {f : Fsm} (h : s.Calls t f) :
    f ∈ s.fsm.successors ∧ .resp ∈ s.fsm.successors := by
  cases h <;> simp [Fsm.successors, *]

theorem State.Exit.successors {s t : State} (h : s.Exit t) (hi : s.fsm ≠ .idle) : t.fsm ∈ s.fsm.successors := by
  cases h
  case waits hf => exact absurd hf hi
  case lifecycle hf hop =>
    rcases hop with ⟨-, rfl⟩ | ⟨-, rfl⟩
    · cases s.opened <;> simp [Fsm.successors, hf]
    · simp [Fsm.successors, hf]
  case loads hf _ _ => by_cases hl : s.regs.len = 0 <;> simp [Fsm.successors, hf, hl]
  case loadsErase hf _ _ => by_cases hl : s.regs.len = 0 <;> simp [Fsm.successors, hf, hl]
  case advances hf => simp only [State.visitAdv, Fsm.successors, hf]; split <;> simp
  case called hc _ => exact hc.successors.1
  case callFails hc _ => exact hc.successors.2
  all_goals simp [Fsm.successors, State.visitXlate, State.visitSeg, State.xferRead, *]

/-- R16: a visit makes at most one call of the peripheral. -/
theorem State.Exit.draws_le {s t : State} (h : s.Exit t) : t.draws ≤ s.draws + 1 := by
  cases h
  case issues hm _ => simp [hm.draws]
  case issueFails hm _ => simp [hm.draws]
  case called hc _ => simp [hc.draws]
  case callFails hc _ => simp [hc.draws]
  all_goals simp [State.visitXlate, State.visitSeg, State.xferRead, State.visitAdv]

/-! ### Which commands enter which states -/

/-- The states of OPEN and CLOSE (R23, codes 8 to 12). -/
def Fsm.inLifecycle : Fsm → Bool
  | .hsOpen | .hsWren | .hsWrsr | .hsRdbk | .hsRead | .close => true
  | _ => false

/-- The segment loop is entered from `S_CHECK` by the transfers only. -/
theorem State.Exit.inLoop {s t : State} (h : s.Exit t) (ht : t.fsm.inLoop = true) :
    s.fsm.inLoop = true ∨ s.regs.op = 2 ∨ s.regs.op = 3 ∨ s.regs.op = 4 := by
  cases h
  case lifecycle hop => rcases hop with ⟨-, rfl⟩ | ⟨-, rfl⟩ <;> cases ho : s.opened <;> simp [Fsm.inLoop, ho] at ht
  case loads hop _ => exact .inr (or_assoc.1 (.inl hop))
  case loadsErase hop _ => exact .inr (.inr (.inr hop))
  case called hc _ => cases hc <;> simp [Fsm.inLoop, *] at ht ⊢
  all_goals simp [Fsm.inLoop, *] at ht ⊢

/-- The states of OPEN and CLOSE are entered from `S_CHECK` by these two only. -/
theorem State.Exit.inLifecycle {s t : State} (h : s.Exit t) (ht : t.fsm.inLifecycle = true) :
    s.fsm.inLifecycle = true ∨ s.regs.op = 0 ∨ s.regs.op = 1 := by
  cases h
  case lifecycle hop => exact .inr (hop.imp And.left And.left)
  case called hc _ => cases hc <;> simp [Fsm.inLifecycle, *] at ht ⊢
  case loads => by_cases hl : s.regs.len = 0 <;> simp [Fsm.inLifecycle, hl] at ht
  case loadsErase => by_cases hl : s.regs.len = 0 <;> simp [Fsm.inLifecycle, hl] at ht
  case advances => simp only [State.visitAdv] at ht; split at ht <;> simp [Fsm.inLifecycle] at ht
  all_goals simp [Fsm.inLifecycle, State.visitXlate, State.visitSeg, State.xferRead, *] at ht ⊢

end Sys2Proof.Machine
end

section
/-! Layer 3: what every visit keeps, every step of the machine keeps. -/

namespace Sys2Proof.Machine

/-! ### Acceptance -/

/-- R25, R83, R87: the working registers once a descriptor is accepted; a reserved encoding loads its opcode only. -/
def loadDescriptor (d : Descriptor) (r : Regs) : Regs :=
  match decode d with
  | .ok i => i.load r
  | .error _ => { r with op := cmdOp d.cmd }

@[simp] theorem load_op (i : Instr) (r : Regs) : (i.load r).op = i.opcode := by
  cases i <;> rfl

/-- R83: a command that is no transfer loads its opcode only. -/
theorem load_of_not_transfer {i : Instr} (h2 : i.opcode ≠ 2) (h3 : i.opcode ≠ 3) (h4 : i.opcode ≠ 4) (r : Regs) :
    i.load r = { r with op := i.opcode } := by
  cases i <;> simp_all [Instr.load, Instr.opcode]

/-- What a descriptor that runs to a next state does: it is accepted, with a visit of `S_CHECK` of its own if it is a
reserved encoding, and its sequencer steps follow. -/
theorem runDescriptor_next {d : Descriptor} {s t : State} (h : runDescriptor d s = .next t) :
    s.fsm = .idle ∧ ∃ n, t = (s.accept (loadDescriptor d s.regs)).run n ∨
      t = ((s.accept (loadDescriptor d s.regs)).tickBy State.rejectEncoding).run n := by
  unfold runDescriptor at h
  unfold loadDescriptor
  cases hd : decode d with
  | ok i =>
    simp only [hd] at h
    obtain ⟨-, hi, rfl⟩ := exec_next h
    exact ⟨hi, _, .inl rfl⟩
  | error e =>
    simp only [hd] at h
    unfold State.commandReserved at h
    split at h
    · cases h
      exact ⟨by assumption, _, .inr rfl⟩
    · cases h

/-- What a step can do: one sequencer step, or the run of the next descriptor from port HC. -/
theorem step_next {s t : State} (h : step s = .next t) :
    s.cfg.wf = true ∧ (t = s.tick ∨ s.fsm = .idle ∧ ∃ q rest, s.hc = q :: rest ∧ q.desc.fits s.cfg = true ∧
      runDescriptor q.desc (s.issue q rest) = .next t) := by
  unfold step State.stepOnce at h
  split at h
  · cases h
  · rename_i hwf
    refine ⟨by simpa using hwf, ?_⟩
    split at h
    · cases h; exact .inl rfl
    · rename_i hi
      unfold State.takeRequest at h
      split at h
      · cases h; exact .inl rfl
      · rename_i q rest hhc
        split at h
        · rename_i hfit
          exact .inr ⟨by simpa using fun e => hi (.inl e), q, rest, hhc, hfit, h⟩
        · cases h

/-! ### What is kept -/

/-- A property of what `visit` does and of the block's reset is a property of a step by `visit`, where it does not look
at the reset input. -/
theorem tickBy_keeps {P : State → Prop} {visit : State → State}
    (hin : ∀ (u : State) r, P u → P { u with resets := r }) (hvisit : ∀ u : State, P u → P (visit u))
    (hreset : ∀ u : State, P u → P u.takeReset) {s : State} (h : P s) : P (s.tickBy visit) := by
  unfold State.tickBy
  split
  · exact hvisit s h
  · exact hreset s h
  · exact hvisit _ (hin s _ h)

/-- A step inside a command is a visit, the next reset drawing nearer, unless a reset is due. -/
theorem tick_visit_or_reset (s : State) :
    (∃ r, s.tick = { s with resets := r }.visit) ∨ (s.resets.head? = some 0 ∧ s.tick = s.takeReset) := by
  match h : s.resets with
  | [] => exact .inl ⟨s.resets, tick_of_noReset h⟩
  | 0 :: _ => exact .inr ⟨rfl, tick_of_due h⟩
  | (_ + 1) :: later => exact .inl ⟨_, tick_of_later h⟩

/-- A property that the acceptance of a descriptor, every visit, the rejection of a reserved encoding and the reset keep
is kept by every step. -/
theorem step_keeps {P : State → Prop} (hin : ∀ (u : State) r, P u → P { u with resets := r })
    (haccept : ∀ (u : State) q rest, P u → q.desc.fits u.cfg = true →
      P ((u.issue q rest).accept (loadDescriptor q.desc u.regs)))
    (hvisit : ∀ u : State, P u → P u.visit) (hreject : ∀ u : State, P u → P u.rejectEncoding)
    (hreset : ∀ u : State, P u → P u.takeReset) {s t : State} (hs : P s) (h : step s = .next t) : P t := by
  have htick (u : State) : P u → P u.tick := tick_keeps hin hvisit hreset
  obtain ⟨-, rfl | ⟨-, q, rest, -, hfit, hrun⟩⟩ := step_next h
  · exact htick s hs
  · have hacc := haccept s q rest hs hfit
    obtain ⟨-, n, rfl | rfl⟩ := runDescriptor_next hrun
    · exact run_keeps (fun u _ => htick u) n hacc
    · exact run_keeps (fun u _ => htick u) n (tickBy_keeps hin hreject hreset hacc)

/-- Without a reset, what acceptance establishes and every way out keeps holds of the state a command leaves. -/
theorem exec_keeps_of_exit {P : State → Prop} {i : Instr} {s t : State} (hr : s.resets = []) (h : exec i s = .next t)
    (hacc : P (s.accept (i.load s.regs))) (hexit : ∀ u v : State, u.Exit v → P u → P v) : P t := by
  refine (exec_keeps (P := fun u => u.resets = [] ∧ P u) h ⟨hr, hacc⟩ fun u _ ⟨hu, hP⟩ => ?_).2
  exact ⟨tick_resets_of_nil hu, tick_of_noReset hu ▸ hexit u _ (visit_exit u) hP⟩

/-! ### The statements about single steps -/

/-- Settles O49: neither the acceptance of a descriptor nor a visit nor a reset writes the configuration. -/
theorem stepsKeepTheConfiguration : Obligations.StepsKeepTheConfiguration := by
  intro s t h
  refine step_keeps (P := fun u => u.cfg = s.cfg) ?_ ?_ ?_ ?_ ?_ rfl h
  · exact fun _ _ hu => hu
  · exact fun _ _ _ hu _ => hu
  · exact fun u hu => (visit_cfg u).trans hu
  · exact fun _ hu => hu
  · exact fun _ hu => hu

/-- Settles O51: the two branches of a step that take no descriptor. -/
theorem stepGoesOnOrWaits : Obligations.StepGoesOnOrWaits := by
  intro s hwf hr
  constructor
  · intro hi
    simp [step, State.stepOnce, hwf, hi]
  · intro hi hhc
    have hwait : s.tick = s := by rw [tick_of_noReset hr, State.visit, hi]
    simp [step, State.stepOnce, State.takeRequest, hwf, hi, hr, hhc, hwait]

/-- Settles O52: without a reset a step is a visit, and its ways out are those of the table. -/
theorem sequencerFollowsItsTable : Obligations.SequencerFollowsItsTable := by
  intro s hr hi
  rw [tick_of_noReset hr]
  have hexit := visit_exit s
  refine ⟨hexit.successors hi, fun hf hop => ?_, fun hf hop => ?_, hexit.draws_le⟩
  · simp [State.visit, hf, State.visitXfer, hop, State.xferRead]
  · obtain ⟨t, -, ⟨-, e⟩ | ⟨-, e⟩⟩ := visitXfer_mutates hop <;> simp [State.visit, hf, e]

/-! ### What a command may change -/

/-- Outside OPEN and CLOSE a visit leaves `opened` and the peripheral's condition alone. -/
theorem State.Exit.lifecycle_unchanged {s t : State} (h : s.Exit t) (hf : s.fsm.inLifecycle = false) :
    t.opened = s.opened ∧ t.condition = s.condition := by
  cases h
  case issues hm _ => simp [hm.opened, hm.condition]
  case issueFails hm _ => simp [hm.opened, hm.condition]
  case called hc _ => cases hc <;> simp_all [Fsm.inLifecycle]
  case callFails hc _ => cases hc <;> simp_all [Fsm.inLifecycle]
  case readBackFails h0 _ => simp [Fsm.inLifecycle, h0] at hf
  case mismatches h0 _ _ => simp [Fsm.inLifecycle, h0] at hf
  case opens h0 _ _ => simp [Fsm.inLifecycle, h0] at hf
  all_goals simp [State.visitXlate, State.visitSeg, State.xferRead, State.visitAdv]

/-- Settles O20: a command that is neither OPEN nor CLOSE never enters their sequencer states, and the others leave the
lifecycle alone. -/
theorem onlyOpenAndCloseChangeTheLifecycle : Obligations.OnlyOpenAndCloseChangeTheLifecycle := by
  intro i s t hr h0 h1 h
  have key : (t.regs.op = i.opcode ∧ t.fsm.inLifecycle = false) ∧ t.opened = s.opened ∧ t.condition = s.condition := by
    refine exec_keeps_of_exit (P := fun u => (u.regs.op = i.opcode ∧ u.fsm.inLifecycle = false) ∧
      u.opened = s.opened ∧ u.condition = s.condition) hr h ⟨⟨load_op i _, rfl⟩, rfl, rfl⟩ ?_
    rintro u v hexit ⟨⟨hop, hf⟩, ho, hc⟩
    obtain ⟨ho', hc'⟩ := hexit.lifecycle_unchanged hf
    refine ⟨⟨hexit.op.trans hop, ?_⟩, ho'.trans ho, hc'.trans hc⟩
    by_contra hv
    rcases hexit.inLifecycle (by simpa using hv) with h' | h' | h'
    · simp [hf] at h'
    · exact h0 (hop ▸ h')
    · exact h1 (hop ▸ h')
  exact key.2

/-- Two register files that differ in the status latch and `value` at most. -/
def Regs.SameButLatch (r r' : Regs) : Prop :=
  r' = { r with stKind := r'.stKind, stInfo := r'.stInfo, value := r'.value }

theorem Regs.SameButLatch.trans {r r' r'' : Regs} (h : r.SameButLatch r') (h' : r'.SameButLatch r'') :
    r.SameButLatch r'' := by
  unfold Regs.SameButLatch at *
  rw [h', h]

/-- ERASE leaves `buf_off` alone (R160). -/
theorem State.Exit.bufOff_of_erase {s t : State} (h : s.Exit t) (hop : s.regs.op = 4) :
    t.regs.bufOff = s.regs.bufOff := by
  cases h
  case loads h23 _ => simp [hop] at h23
  case issues hm _ => simp [hm.regs]
  case issueFails hm _ => simp [hm.regs, Regs.latch]
  case called hc _ => simp [hc.regs]
  case callFails hc _ => simp [hc.regs, Regs.latch]
  all_goals simp [Regs.latch, Regs.clearLatch, State.visitXlate, State.visitSeg, State.xferRead, State.visitAdv, hop]

/-- A READ never polls, and leaves `poll_cnt` alone. -/
theorem State.Exit.pollCnt_of_read {s t : State} (h : s.Exit t) (hop : s.regs.op = 2) (hf : s.fsm ≠ .poll) :
    t.regs.pollCnt = s.regs.pollCnt ∧ t.fsm ≠ .poll := by
  cases h
  case lifecycle h01 => simp [hop] at h01
  case loadsErase h4 _ => simp [hop] at h4
  case loads => refine ⟨rfl, ?_⟩; simp only; split <;> simp
  case advances => refine ⟨rfl, ?_⟩; simp only [State.visitAdv]; split <;> simp
  case called hc _ => refine ⟨by simp [hc.regs], ?_⟩; cases hc <;> simp
  case callFails hc _ => simp [hc.regs, Regs.latch]
  all_goals simp_all [Regs.latch, Regs.clearLatch, State.visitXlate, State.visitSeg, State.xferRead]

/-- Outside the segment loop a command that is no transfer writes the status latch and `value` only. -/
theorem State.Exit.regs_of_not_transfer {s t : State} (h : s.Exit t) (hl : s.fsm.inLoop = false)
    (hop : ¬(s.regs.op = 2 ∨ s.regs.op = 3 ∨ s.regs.op = 4)) : s.regs.SameButLatch t.regs := by
  cases h
  case called hc _ => simp [hc.regs, Regs.SameButLatch]
  case callFails hc _ => simp [hc.regs, Regs.SameButLatch, Regs.latch]
  case loads h23 _ => exact absurd (or_assoc.1 (.inl h23)) hop
  case loadsErase h4 _ => exact absurd (.inr (.inr h4)) hop
  all_goals simp_all [Fsm.inLoop, Regs.SameButLatch, Regs.latch, Regs.clearLatch]

/-- Settles O46, one register rule per clause, each kept by every way out of a sequencer state. -/
theorem commandsChangeOnlyTheirRegisters : Obligations.CommandsChangeOnlyTheirRegisters := by
  intro i s t hr h
  have keeps {P : State → Prop} := exec_keeps_of_exit (P := P) hr h
  have hops : t.regs.operands = (i.load s.regs).operands :=
    keeps (P := fun u => u.regs.operands = (i.load s.regs).operands) rfl fun u v e hu => e.operands.trans hu
  have hop : t.regs.op = i.opcode := (congrArg Prod.fst hops).trans (load_op i _)
  refine ⟨⟨hop, ?_⟩, fun h4 => ?_, fun h2 => ?_, fun h2 h3 h4 => ?_⟩
  · simp only [Regs.operands, Prod.mk.injEq] at hops
    exact hops.2
  · refine (keeps (P := fun u => u.regs.op = 4 ∧ u.regs.bufOff = s.regs.bufOff) ⟨by simp [h4], ?_⟩ ?_).2
    · cases i <;> simp_all [Instr.load, Instr.opcode]
    · exact fun u v e ⟨hu, hb⟩ => ⟨e.op.trans hu, (e.bufOff_of_erase hu).trans hb⟩
  · refine (keeps (P := fun u => u.regs.op = 2 ∧ u.fsm ≠ .poll ∧ u.regs.pollCnt = s.regs.pollCnt)
      ⟨by simp [h2], by simp, ?_⟩ ?_).2.2
    · cases i <;> rfl
    · intro u v e ⟨hu, hf, hp⟩
      obtain ⟨hp', hf'⟩ := e.pollCnt_of_read hu hf
      exact ⟨e.op.trans hu, hf', hp'.trans hp⟩
  · have hload := load_of_not_transfer h2 h3 h4 s.regs
    have key := keeps (P := fun u => u.regs.op = i.opcode ∧ u.fsm.inLoop = false ∧ (i.load s.regs).SameButLatch u.regs)
      ⟨load_op i _, rfl, rfl⟩ fun u v e ⟨hu, hl, hs⟩ => ?_
    · rw [hload] at key
      exact key.2.2
    · have hnot : ¬(u.regs.op = 2 ∨ u.regs.op = 3 ∨ u.regs.op = 4) := by
        rw [hu]
        exact not_or.2 ⟨h2, not_or.2 ⟨h3, h4⟩⟩
      refine ⟨e.op.trans hu, ?_, hs.trans (e.regs_of_not_transfer hl hnot)⟩
      by_contra hv
      exact (e.inLoop (by simpa using hv)).elim (by simp [hl]) hnot

/-! ### The device's busy condition (R203) -/

theorem State.Calls.inFlight_of_idle {s t : State} {f : Fsm} (h : s.Calls t f) (hi : s.inFlight = none) :
    t.inFlight = none := by
  cases h
  · exact bankSelect_inFlight_of_idle hi _
  · exact peripheralOpen_inFlight_of_idle hi
  · exact directWrite_inFlight_of_idle hi _ _
  · exact directWrite_inFlight_of_idle hi _ _
  · exact directWrite_inFlight_of_idle hi _ _
  · exact peripheralClose_inFlight_of_idle hi

/-- An idle device becomes busy in `S_XFER` of a PROGRAM or an ERASE only. -/
theorem State.Exit.inFlight_of_idle {s t : State} (h : s.Exit t) (hi : s.inFlight = none)
    (hx : s.fsm ≠ .xfer ∨ s.regs.op = 2) : t.inFlight = none := by
  cases h
  case issues hf hop _ _ => exact (hx.elim (absurd hf) (absurd · hop))
  case issueFails hf hop _ _ => exact (hx.elim (absurd hf) (absurd · hop))
  case copies => simpa [State.xferRead] using memRead_inFlight_of_idle hi _ _
  case pollFails => simp [sampleBusy_of_idle hi, spoil_inFlight_of_idle]
  case completes => simpa using statusGet_inFlight_of_idle hi
  case timesOut hb _ => simp [sampleBusy_of_idle hi] at hb
  case pollsAgain => exact statusGet_inFlight_of_idle hi
  case called hc _ => simpa using hc.inFlight_of_idle hi
  case callFails hc _ => simpa using hc.inFlight_of_idle hi
  case readBackFails => simpa using directRead_inFlight_of_idle hi _
  case mismatches => simpa using directRead_inFlight_of_idle hi _
  case opens => simpa using directRead_inFlight_of_idle hi _
  all_goals exact hi

theorem State.Mutates.busy_of_ready {s t : State} (h : s.Mutates t) (hr : s.ready = true) (h0 : s.nextStatus = 0) :
    t.busy = true := by
  cases h
  · simp [program_of_ready hr h0, State.busy]
  · simp [eraseBlock_of_ready hr h0, State.busy]

/-- A ready device that accepts a program or an erase is busy with it (R196, R197). -/
theorem visit_busy_of_ready {s : State} (hr : s.ready = true) (hf : s.fsm = .xfer) (hop : s.regs.op ≠ 2)
    (h0 : s.nextStatus = 0) : s.visit.busy = true := by
  obtain ⟨t, hm, ⟨-, e⟩ | ⟨h, -⟩⟩ := visitXfer_mutates hop
  · simpa [State.visit, hf, e, State.busy] using hm.busy_of_ready hr h0
  · exact absurd h0 h

/-- A sample that finds the device not busy leaves it idle, error or not (R203). -/
theorem visit_inFlight_of_notBusy {s : State} (hf : s.fsm = .poll) (hb : s.sampleBusy = false) :
    s.visit.inFlight = none := by
  have hidle : s.called.inFlight = none := by simpa [State.sampleBusy, State.busy] using hb
  simp only [State.visit, hf]
  rcases visitPoll_cases s with ⟨-, e⟩ | ⟨-, -, e⟩ | ⟨-, hb', -⟩ | ⟨-, hb', -⟩
  · simp [e, hb, spoil_inFlight_of_idle]
  · simpa [e, State.statusGet] using hidle
  · simp [hb] at hb'
  · simp [hb] at hb'

/-- The device is idle, and the command is none that makes it busy. -/
def State.StaysIdle (s : State) : Prop :=
  s.inFlight = none ∧ (s.regs.op ≠ 3 ∧ s.regs.op ≠ 4) ∧ (s.fsm.inLoop = true → s.regs.op = 2)

theorem visit_staysIdle {s : State} (h : s.StaysIdle) : s.visit.StaysIdle := by
  obtain ⟨hidle, ⟨h3, h4⟩, hl⟩ := h
  have e := visit_exit s
  refine ⟨e.inFlight_of_idle hidle ?_, by rw [e.op]; exact ⟨h3, h4⟩, fun ht => ?_⟩
  · by_cases hf : s.fsm = .xfer
    · exact .inr (hl (by rw [hf]; rfl))
    · exact .inl hf
  · rw [e.op]
    rcases e.inLoop ht with h' | h' | h' | h'
    · exact hl h'
    · exact h'
    · exact absurd h' h3
    · exact absurd h' h4

theorem takeReset_staysIdle {s : State} (h : s.StaysIdle) : s.takeReset.StaysIdle := by
  obtain ⟨hidle, -⟩ := h
  exact ⟨hidle, by simp [Regs.reset], by simp [Fsm.inLoop]⟩

/-- No command but PROGRAM, WRITE and ERASE makes an idle device busy, a reset or not. -/
theorem exec_inFlight_of_idle {i : Instr} {s t : State} (hi : s.inFlight = none) (h3 : i.opcode ≠ 3)
    (h4 : i.opcode ≠ 4) (h : exec i s = .next t) : t.inFlight = none := by
  have hacc : (s.accept (i.load s.regs)).StaysIdle := ⟨hi, by simpa using And.intro h3 h4, by simp [Fsm.inLoop]⟩
  have hend : t.StaysIdle := exec_keeps h hacc fun u _ hu =>
    tick_keeps (P := State.StaysIdle) (fun _ _ hu => hu) (fun _ => visit_staysIdle) (fun _ => takeReset_staysIdle) hu
  exact hend.1

/-- Settles O59: the clauses about a sequencer step from the ways out of `S_XFER` and `S_POLL`, the one about commands by
keeping the device idle along the run. -/
theorem onlyAProgramOrAnEraseMakesTheDeviceBusy : Obligations.OnlyAProgramOrAnEraseMakesTheDeviceBusy := by
  refine ⟨fun s hi hx => ?_, fun s hready hf hop h0 hr => ?_, fun s hf hr hb => ?_, fun i s t => exec_inFlight_of_idle⟩
  · rcases tick_visit_or_reset s with ⟨r, e⟩ | ⟨-, e⟩ <;> rw [e]
    · exact (visit_exit { s with resets := r }).inFlight_of_idle hi hx
    · exact hi
  · rcases tick_visit_or_reset s with ⟨r, e⟩ | ⟨h, -⟩
    · exact e ▸ visit_busy_of_ready (s := { s with resets := r }) hready hf hop h0
    · exact absurd h hr
  · rcases tick_visit_or_reset s with ⟨r, e⟩ | ⟨h, -⟩
    · have hb' : { s with resets := r }.sampleBusy = false := by rw [sampleBusy_eq] at hb ⊢; exact hb
      exact e ▸ visit_inFlight_of_notBusy (s := { s with resets := r }) hf hb'
    · exact absurd h hr

end Sys2Proof.Machine
end

section
/-! Layer 4: the invariant. First the arithmetic of a legal configuration, then the registers (their widths and the
segment loop, R24, R25, R27), then the peripheral; every way out of a sequencer state keeps each. -/

namespace Sys2Proof.Machine

/-! ### The arithmetic of a legal configuration -/

theorem le_two_pow_ceilLog2 (n : Nat) : n ≤ 2 ^ ceilLog2 n := by
  unfold ceilLog2
  split
  · simpa
  · have := Nat.lt_log2_self (n := n - 1)
    omega

/-- R8, R25: every bank has an index of `BANK_W` bits. -/
theorem nBanks_le_two_pow_bankW (c : Config) : nBanks c ≤ 2 ^ bankW c :=
  (le_two_pow_ceilLog2 _).trans (Nat.pow_le_pow_right (by omega) (le_max_right _ _))

/-- R25: `poll_cnt` can hold `POLL_LIMIT`. -/
theorem pollLimit_lt_two_pow_pollW (c : Config) : c.pollLimit < 2 ^ pollW c := le_two_pow_ceilLog2 _

/-- R114: the bank of a byte of the device exists. -/
theorem translateBank_lt_nBanks {c : Config} (hw : 0 < c.window) {la : Nat} (h : la < c.totalSize) :
    translateBank c la < nBanks c := by
  unfold translateBank nBanks ceilDiv
  calc la / c.window < la / c.window + 1 := Nat.lt_succ_self _
    _ = (la + c.window) / c.window := (Nat.add_div_right _ hw).symm
    _ ≤ (c.totalSize + c.window - 1) / c.window := Nat.div_le_div_right (by omega)

/-- The granule that holds `x` ends within `n`, if `n` is a multiple of the granule (R119, R120). -/
theorem granule_end_le {g n x : Nat} (hg : g ∣ n) (hx : x < n) : x + (g - x % g) ≤ n := by
  obtain ⟨k, rfl⟩ := hg
  have hgpos : 0 < g := Nat.pos_of_mul_pos_right (Nat.zero_lt_of_lt hx)
  have hq : x / g < k := Nat.div_lt_of_lt_mul hx
  have hmul : g * (x / g + 1) ≤ g * k := Nat.mul_le_mul_left g hq
  have hdm := Nat.div_add_mod x g
  have hlt := Nat.mod_lt x hgpos
  rw [Nat.mul_add] at hmul
  omega

theorem eraseGran_le_totalSize {c : Config} (h : c.wf = true) : c.eraseGran ≤ c.totalSize := by
  obtain ⟨-, ht, -, -, -, -, -, -, -, hd, -⟩ := wf_facts h
  exact Nat.le_of_dvd ht hd

theorem alignDownBlock_le (c : Config) (la : Nat) : alignDownBlock c la ≤ la := Nat.div_mul_le_self _ _

@[simp] theorem alignDownBlock_mod (c : Config) (la : Nat) : alignDownBlock c la % c.eraseGran = 0 :=
  Nat.mul_mod_left _ _

theorem eraseStart_le (c : Config) (address : Nat) : eraseStart c address ≤ address := by
  unfold eraseStart
  split
  · exact alignDownBlock_le c address
  · exact le_rfl

theorem eraseStart_mod {c : Config} {address : Nat} (hmode : c.eraseMode = .perGranule) :
    eraseStart c address % c.eraseGran = 0 := by
  simp only [eraseStart, hmode, alignDownBlock_mod]

theorem segmentStart_le (c : Config) (op : Opcode) (cursor : Nat) : segmentStart c op cursor ≤ cursor := by
  unfold segmentStart
  repeat' split
  · exact le_rfl
  · exact alignDownBlock_le c cursor
  · exact le_rfl

/-! ### The registers in the segment loop -/

/-- R24, R27, R161: what the registers of a transfer hold in every state of the segment loop. -/
structure Regs.Transferring (c : Config) (r : Regs) : Prop where
  op      : r.op = 2 ∨ r.op = 3 ∨ r.op = 4
  left    : 0 < r.remaining
  range   : (r.cursor : Int) + r.remaining ≤ c.totalSize
  buffer  : r.op ≠ 4 → (r.bufOff : Int) + r.remaining = r.len
  aligned : r.op = 4 → c.eraseMode = .perGranule → r.cursor % c.eraseGran = 0

/-- `bank` and `pa` are those of the segment. -/
def Regs.Located (c : Config) (r : Regs) : Prop :=
  r.bank = translateBank c (segmentStart c r.op r.cursor) ∧ r.pa = translatePa c (segmentStart c r.op r.cursor)

/-- `seg_len` is the segment's. -/
def Regs.Measured (c : Config) (r : Regs) : Prop := r.segLen = segmentLength c r.op r.cursor r.remaining

/-- The poll of a PROGRAM or an ERASE has samples left. -/
def Regs.Polling (c : Config) (r : Regs) : Prop := r.op ≠ 2 ∧ 0 < r.pollCnt ∧ r.pollCnt ≤ c.pollLimit

theorem loopOk_iff (s : State) :
    s.loopOk ↔ (s.fsm.inLoop = true → s.regs.Transferring s.cfg) ∧ (s.fsm.hasBank = true → s.regs.Located s.cfg) ∧
      (s.fsm.hasLength = true → s.regs.Measured s.cfg) ∧ (s.fsm = .poll → s.regs.Polling s.cfg) := by
  constructor
  · intro h
    exact ⟨fun hf => ⟨h.op hf, h.left hf, h.range hf, h.buffer hf, h.aligned hf⟩, fun hf => ⟨h.bank hf, h.pa hf⟩,
      h.length, h.poll⟩
  · rintro ⟨ht, hb, hl, hp⟩
    exact ⟨fun hf => (ht hf).op, fun hf => (ht hf).left, fun hf => (ht hf).range, fun hf => (ht hf).buffer,
      fun hf => (ht hf).aligned, fun hf => (hb hf).1, fun hf => (hb hf).2, hl, hp⟩

theorem transferring_of_inLoop {s : State} (h : s.loopOk) (hf : s.fsm.inLoop = true) : s.regs.Transferring s.cfg :=
  ((loopOk_iff s).1 h).1 hf

/-- Outside the segment loop nothing is asked of the registers. -/
theorem loopOk_of_outside {s : State} (h : s.fsm.inLoop = false) : s.loopOk := by
  rw [loopOk_iff]
  cases hf : s.fsm <;> simp_all [Fsm.inLoop, Fsm.hasBank, Fsm.hasLength]

section
variable {c : Config} {r : Regs}

theorem Regs.Transferring.cursor_lt (h : r.Transferring c) : r.cursor < c.totalSize := by
  have hleft := h.left
  have hrange := h.range
  omega

/-- R27: a READ or PROGRAM segment is no longer than what remains. -/
theorem segmentLength_le_remaining {op : Opcode} (hop : op = 2 ∨ op = 3) (cursor : Nat) (remaining : Int) :
    segmentLength c op cursor remaining ≤ remaining.toNat := by
  rcases hop with rfl | rfl <;> simp [segmentLength]

@[simp] theorem segmentLength_erase (cursor : Nat) (remaining : Int) :
    segmentLength c 4 cursor remaining = c.eraseGran := by
  simp [segmentLength]

theorem segmentLength_lt (hc : c.wf = true) (h : r.Transferring c) (hrem : r.remaining < (2 ^ c.aw : Int)) :
    segmentLength c r.op r.cursor r.remaining < 2 ^ c.aw := by
  obtain ⟨-, -, -, -, -, -, -, -, hsize, -⟩ := wf_facts hc
  have hleft := h.left
  rcases or_assoc.2 h.op with hop | hop
  · have hle := segmentLength_le_remaining (c := c) hop r.cursor r.remaining
    have hcast : ((2 ^ c.aw : Nat) : Int) = 2 ^ c.aw := by push_cast; rfl
    omega
  · rw [hop, segmentLength_erase]
    exact (eraseGran_le_totalSize hc).trans_lt hsize

/-- R161, R162: a transfer's next segment starts inside the device or at its end. -/
theorem cursor_add_advanceStep_le (hc : c.wf = true) (h : r.Transferring c) (hm : r.Measured c) :
    r.cursor + advanceStep c r.op r.cursor r.segLen ≤ c.totalSize := by
  obtain ⟨-, -, -, -, -, -, -, -, -, hdvd, -⟩ := wf_facts hc
  have hend := granule_end_le hdvd h.cursor_lt
  have hleft := h.left
  have hrange := h.range
  rcases or_assoc.2 h.op with hop | hop
  · have hle := segmentLength_le_remaining (c := c) hop r.cursor r.remaining
    have hne : r.op ≠ 4 := by rcases hop with e | e <;> simp [e]
    rw [hm, advanceStep, if_neg hne]
    omega
  · rw [advanceStep, if_pos hop, eraseStep]
    cases hmode : c.eraseMode
    · simpa [h.aligned hop hmode] using hend
    · exact hend

/-- R140, R150: a READ or a PROGRAM advances by no more than what remains. -/
theorem advanceStep_le_remaining (h : r.Transferring c) (hm : r.Measured c) (hop : r.op ≠ 4) :
    (advanceStep c r.op r.cursor r.segLen : Int) ≤ r.remaining := by
  have hleft := h.left
  have hle := segmentLength_le_remaining (c := c) ((or_assoc.2 h.op).resolve_right hop) r.cursor r.remaining
  rw [hm, advanceStep, if_neg hop]
  omega

/-- R160: in `perGranule` mode ERASE's cursor stays on block boundaries. -/
theorem advance_aligned (h : r.Transferring c) (hop : r.op = 4) (hmode : c.eraseMode = .perGranule) :
    (r.cursor + advanceStep c r.op r.cursor r.segLen) % c.eraseGran = 0 := by
  simp [advanceStep, hop, eraseStep, hmode, h.aligned hop hmode]

end

/-! ### The registers stay within their widths (R25) -/

section
variable {c : Config} {r : Regs}

theorem fits_reset : Regs.reset.fits c := by
  simp [Regs.fits, Regs.reset]

theorem fits_latch (h : r.fits c) (k : Kind) {info : Nat} (hi : info < 2 ^ c.perrW) : (r.latch k info).fits c := by
  obtain ⟨h1, h2, h3, h4, h5, h6, h7, h8, h9, h10, -⟩ := h
  exact ⟨h1, h2, h3, h4, h5, h6, h7, h8, h9, h10, hi⟩

theorem fits_clearLatch (h : r.fits c) : r.clearLatch.fits c := fits_latch h .ok (Nat.two_pow_pos _)

theorem fits_decPoll (h : r.fits c) : { r with pollCnt := r.pollCnt - 1 }.fits c := by
  obtain ⟨h1, h2, h3, h4, h5, h6, h7, h8, h9, h10, h11⟩ := h
  exact ⟨h1, h2, h3, h4, h5, h6, h7, h8, h9, (Nat.sub_le _ _).trans_lt h10, h11⟩

theorem fits_startPoll (h : r.fits c) : { r with pollCnt := c.pollLimit }.fits c := by
  obtain ⟨h1, h2, h3, h4, h5, h6, h7, h8, h9, -, h11⟩ := h
  exact ⟨h1, h2, h3, h4, h5, h6, h7, h8, h9, pollLimit_lt_two_pow_pollW c, h11⟩

/-- `S_CHECK` starts a transfer at or below its address. -/
theorem fits_start (h : r.fits c) {start off : Nat} (hs : start ≤ r.addr) (ho : off < 2 ^ c.aw) :
    { r.clearLatch with cursor := start, bufOff := off, remaining := (r.len : Int) }.fits c := by
  obtain ⟨h1, h2, -, -, h5, -, -, h8, h9, h10, h11⟩ := fits_clearLatch h
  have hcast : ((2 ^ c.aw : Nat) : Int) = 2 ^ c.aw := by push_cast; rfl
  have hlen : r.len < 2 ^ c.aw := h2
  exact ⟨h1, h2, hs.trans_lt h1, ho, h5, by simp only; omega, by simp only; omega, h8, h9, h10, h11⟩

theorem fits_translate (hc : c.wf = true) (h : r.fits c) {la : Nat} (hla : la < c.totalSize) :
    { r with bank := translateBank c la, pa := translatePa c la }.fits c := by
  obtain ⟨hw, -, -, -, -, -, -, -, -, -, hpa, -⟩ := wf_facts hc
  obtain ⟨h1, h2, h3, h4, h5, h6, h7, -, -, h10, h11⟩ := h
  have hbank := (translateBank_lt_nBanks hw hla).trans_le (nBanks_le_two_pow_bankW c)
  have hmod := Nat.mod_lt la hw
  exact ⟨h1, h2, h3, h4, h5, h6, h7, hbank, by simp only [translatePa]; omega, h10, h11⟩

theorem fits_measure (hc : c.wf = true) (h : r.fits c) (ht : r.Transferring c) :
    { r with segLen := segmentLength c r.op r.cursor r.remaining }.fits c := by
  obtain ⟨h1, h2, h3, h4, -, h6, h7, h8, h9, h10, h11⟩ := h
  exact ⟨h1, h2, h3, h4, segmentLength_lt hc ht h7, h6, h7, h8, h9, h10, h11⟩

/-- The registers after `S_ADV` has advanced by `n`. -/
def Regs.advance (n : Nat) (r : Regs) : Regs :=
  { r with
    cursor := r.cursor + n
    bufOff := if r.op = 4 then r.bufOff else r.bufOff + n
    remaining := r.remaining - (n : Int) }

theorem visitAdv_regs (s : State) :
    s.visitAdv.regs = s.regs.advance (advanceStep s.cfg s.regs.op s.regs.cursor s.regs.segLen) := rfl

theorem fits_advance (hc : c.wf = true) (h : r.fits c) (ht : r.Transferring c) (hm : r.Measured c) :
    (r.advance (advanceStep c r.op r.cursor r.segLen)).fits c := by
  obtain ⟨-, -, -, -, -, -, -, -, hsize, -⟩ := wf_facts hc
  obtain ⟨h1, h2, h3, h4, h5, h6, h7, h8, h9, h10, h11⟩ := h
  have hcast : ((2 ^ c.aw : Nat) : Int) = 2 ^ c.aw := by push_cast; rfl
  have hend := cursor_add_advanceStep_le hc ht hm
  have hleft := ht.left
  have hoff : (if r.op = 4 then r.bufOff else r.bufOff + advanceStep c r.op r.cursor r.segLen) < 2 ^ c.aw := by
    split
    · exact h4
    · rename_i hop
      have hle := advanceStep_le_remaining ht hm hop
      have hbuf := ht.buffer hop
      omega
  exact ⟨h1, h2, hend.trans_lt hsize, hoff, h5, by simp only [Regs.advance]; omega, by simp only [Regs.advance]; omega,
    h8, h9, h10, h11⟩

theorem transferring_advance (ht : r.Transferring c)
    (hmore : 0 < r.remaining - (advanceStep c r.op r.cursor r.segLen : Int)) :
    (r.advance (advanceStep c r.op r.cursor r.segLen)).Transferring c where
  op := ht.op
  left := hmore
  range := by
    have := ht.range
    simp only [Regs.advance]
    omega
  buffer := fun hop => by
    have hop' : r.op ≠ 4 := hop
    have := ht.buffer hop'
    simp only [Regs.advance, if_neg hop']
    omega
  aligned := advance_aligned ht

end
end Sys2Proof.Machine
end

section
/-! Layer 5: every way out of a sequencer state keeps the invariant. -/

namespace Sys2Proof.Machine

/-! ### The registers -/

theorem nextStatus_lt (s : State) : s.nextStatus < 2 ^ s.cfg.perrW := Nat.mod_lt _ (Nat.two_pow_pos _)

theorem State.Exit.cfg {s t : State} (h : s.Exit t) : t.cfg = s.cfg := by
  cases h
  case issues hm _ => simp [hm.cfg]
  case issueFails hm _ => simp [hm.cfg]
  case called hc _ => simp [hc.cfg]
  case callFails hc _ => simp [hc.cfg]
  all_goals simp [State.visitXlate, State.visitSeg, State.xferRead, State.visitAdv]

/-- Where the registers are as they were, the loop is in order if nothing more is asked of them. -/
theorem loopOk_of_regs {s t : State} (h : s.loopOk) (hr : t.regs = s.regs) (hc : t.cfg = s.cfg)
    (hin : t.fsm.inLoop = true → s.fsm.inLoop = true) (hb : t.fsm.hasBank = true → s.fsm.hasBank = true)
    (hl : t.fsm.hasLength = true → s.fsm.hasLength = true) (hp : t.fsm ≠ .poll) : t.loopOk := by
  rw [loopOk_iff] at h ⊢
  obtain ⟨ht, hloc, hm, -⟩ := h
  rw [hr, hc]
  exact ⟨fun hf => ht (hin hf), fun hf => hloc (hb hf), fun hf => hm (hl hf), fun hf => absurd hf hp⟩

theorem transferring_start {c : Config} {r : Regs} {start off : Nat}
    (hop : r.op = 2 ∨ r.op = 3 ∨ r.op = 4) (hlen : r.len ≠ 0) (hfit : start + r.len ≤ c.totalSize)
    (hoff : r.op ≠ 4 → off = 0) (hal : r.op = 4 → c.eraseMode = .perGranule → start % c.eraseGran = 0) :
    { r.clearLatch with cursor := start, bufOff := off, remaining := (r.len : Int) }.Transferring c where
  op := hop
  left := by simp only; omega
  range := by simp only; omega
  buffer := fun h => by
    have hlen' : r.clearLatch.len = r.len := rfl
    have := hoff h
    simp only [hlen']
    omega
  aligned := hal

/-- In `S_XLATE` a transfer in progress is all the loop asks. -/
theorem loopOk_of_xlate {s : State} (hf : s.fsm = .xlate) (h : s.regs.Transferring s.cfg) : s.loopOk := by
  rw [loopOk_iff, hf]
  exact ⟨fun _ => h, nofun, nofun, nofun⟩

theorem loopOk_visitXlate {s : State} (hf : s.fsm = .xlate) (h : s.loopOk) : s.visitXlate.loopOk := by
  rw [loopOk_iff, hf] at h
  obtain ⟨ht, -⟩ := h
  obtain ⟨hop, hleft, hrange, hbuf, hal⟩ := ht rfl
  rw [loopOk_iff]
  exact ⟨fun _ => ⟨hop, hleft, hrange, hbuf, hal⟩, fun _ => ⟨rfl, rfl⟩, nofun, nofun⟩

theorem loopOk_visitSeg {s : State} (hf : s.fsm = .seg) (h : s.loopOk) : s.visitSeg.loopOk := by
  rw [loopOk_iff, hf] at h
  obtain ⟨ht, hloc, -⟩ := h
  obtain ⟨hop, hleft, hrange, hbuf, hal⟩ := ht rfl
  rw [loopOk_iff]
  exact ⟨fun _ => ⟨hop, hleft, hrange, hbuf, hal⟩, fun _ => hloc rfl, fun _ => rfl, nofun⟩

/-- A poll starts, or goes on, with the counter `n`. -/
theorem loopOk_of_poll {s t : State} {n : Nat} (h : s.loopOk) (hf : s.fsm = .xfer ∨ s.fsm = .poll)
    (hr : t.regs = { s.regs with pollCnt := n }) (hc : t.cfg = s.cfg) (hop : s.regs.op ≠ 2) (hn : 0 < n)
    (hle : n ≤ s.cfg.pollLimit) : t.loopOk := by
  rw [loopOk_iff] at h ⊢
  obtain ⟨ht, hloc, hm, -⟩ := h
  have hin : s.fsm.inLoop = true ∧ s.fsm.hasBank = true ∧ s.fsm.hasLength = true := by
    rcases hf with e | e <;> simp [e, Fsm.inLoop, Fsm.hasBank, Fsm.hasLength]
  obtain ⟨hin, hhb, hhl⟩ := hin
  obtain ⟨hop', hleft, hrange, hbuf, hal⟩ := ht hin
  rw [hr, hc]
  exact ⟨fun _ => ⟨hop', hleft, hrange, hbuf, hal⟩, fun _ => hloc hhb, fun _ => hm hhl, fun _ => ⟨hop, hn, hle⟩⟩

/-- What `S_ADV` needs of the registers. -/
theorem transferring_measured_of_adv {s : State} (hf : s.fsm = .adv) (h : s.loopOk) :
    s.regs.Transferring s.cfg ∧ s.regs.Measured s.cfg := by
  rw [loopOk_iff, hf] at h
  obtain ⟨ht, -, hm, -⟩ := h
  exact ⟨ht rfl, hm rfl⟩

theorem loopOk_visitAdv {s : State} (hf : s.fsm = .adv) (h : s.loopOk) : s.visitAdv.loopOk := by
  obtain ⟨ht, hm⟩ := transferring_measured_of_adv hf h
  by_cases hmore : s.regs.remaining - (advanceStep s.cfg s.regs.op s.regs.cursor s.regs.segLen : Int) > 0
  · refine loopOk_of_xlate (by simp only [State.visitAdv, if_pos hmore]) ?_
    rw [visitAdv_regs]
    exact transferring_advance ht hmore
  · exact loopOk_of_outside (by simp only [State.visitAdv, if_neg hmore, Fsm.inLoop])

/-- R24, R27, R161: every way out of a sequencer state keeps the segment loop in order. -/
theorem State.Exit.loopOk {s t : State} (h : s.Exit t) (hc : s.cfg.wf = true) (hl : s.loopOk) : t.loopOk := by
  cases h
  case waits => exact hl
  case lifecycle hop =>
    rcases hop with ⟨-, rfl⟩ | ⟨-, rfl⟩ <;> cases ho : s.opened <;> exact loopOk_of_outside (by simp [Fsm.inLoop])
  case loads hop hr =>
    by_cases hz : s.regs.len = 0
    · exact loopOk_of_outside (by simp [hz, Fsm.inLoop])
    · exact loopOk_of_xlate (by simp [hz]) (transferring_start (or_assoc.1 (.inl hop)) hz hr (fun _ => rfl)
        fun h4 => by simp [h4] at hop)
  case loadsErase h4 hr =>
    have hfit : eraseStart s.cfg s.regs.addr + s.regs.len ≤ s.cfg.totalSize :=
      (Nat.add_le_add_right (eraseStart_le _ _) _).trans hr
    by_cases hz : s.regs.len = 0
    · exact loopOk_of_outside (by simp [hz, Fsm.inLoop])
    · exact loopOk_of_xlate (by simp [hz]) (transferring_start (.inr (.inr h4)) hz hfit (fun h => absurd h4 h)
        fun _ => eraseStart_mod)
  case translates hf => exact loopOk_visitXlate hf hl
  case measures hf => exact loopOk_visitSeg hf hl
  case copies hf _ =>
    exact loopOk_of_regs hl (by simp [State.xferRead]) (by simp [State.xferRead]) (fun _ => by rw [hf]; rfl)
      (fun _ => by rw [hf]; rfl) (fun _ => by rw [hf]; rfl) (by simp [State.xferRead])
  case issues hf hop hm _ =>
    obtain ⟨-, -, -, -, -, -, -, -, -, -, -, hlimit, -⟩ := wf_facts hc
    exact loopOk_of_poll hl (.inl hf) (by simp [hm.regs, hm.cfg]) (by simp [hm.cfg]) hop hlimit le_rfl
  case completes hf _ _ =>
    exact loopOk_of_regs hl (by simp) (by simp) (fun _ => by rw [hf]; rfl) (fun _ => by rw [hf]; rfl)
      (fun _ => by rw [hf]; rfl) (by simp)
  case pollsAgain hf _ _ hcnt =>
    obtain ⟨hop, -, hle⟩ := hl.poll hf
    exact loopOk_of_poll hl (.inr hf) rfl (by simp) hop (by omega) (by omega)
  case advances hf => exact loopOk_visitAdv hf hl
  case called hcall _ =>
    cases hcall
    case bank hf =>
      exact loopOk_of_regs hl (by simp) (by simp) (fun _ => by rw [hf]; rfl) (fun _ => by rw [hf]; rfl) nofun (by simp)
    all_goals exact loopOk_of_outside rfl
  all_goals exact loopOk_of_outside rfl

/-- R25: every way out of a sequencer state keeps the registers within their widths. -/
theorem State.Exit.fits {s t : State} (h : s.Exit t) (hc : s.cfg.wf = true) (hl : s.loopOk) (hr : s.regs.fits s.cfg) :
    t.regs.fits s.cfg := by
  have hclear := fits_clearLatch hr
  have hstatus := fits_latch hr .deviceError (nextStatus_lt s)
  cases h
  case rejects => exact fits_latch hclear _ (Nat.two_pow_pos _)
  case lifecycle => exact hclear
  case answers => exact hclear
  case answersType => exact hclear
  case loads => exact fits_start hr le_rfl (Nat.two_pow_pos _)
  case loadsErase =>
    have ⟨_, _, _, hoff, _⟩ := hr
    exact fits_start hr (eraseStart_le _ _) hoff
  case translates hf =>
    exact fits_translate hc hr ((segmentStart_le _ _ _).trans_lt (transferring_of_inLoop hl (by rw [hf]; rfl)).cursor_lt)
  case measures hf => exact fits_measure hc hr (transferring_of_inLoop hl (by rw [hf]; rfl))
  case advances hf =>
    obtain ⟨ht, hm⟩ := transferring_measured_of_adv hf hl
    rw [visitAdv_regs]
    exact fits_advance hc hr ht hm
  case issues hm _ => simpa [hm.regs, hm.cfg] using fits_startPoll hr
  case issueFails hm _ => simpa [hm.regs] using hstatus
  case called hcall _ => simpa [hcall.regs] using hr
  case callFails hcall _ => simpa [hcall.regs] using hstatus
  case mismatches =>
    obtain ⟨-, -, -, -, -, -, -, -, -, -, -, -, -, -, hcode⟩ := wf_facts hc
    simpa using fits_latch hr .deviceError hcode
  case timesOut => simpa using fits_latch (fits_decPoll hr) .timeout (Nat.two_pow_pos _)
  case pollsAgain => exact fits_decPoll hr
  case pollFails => simpa using hstatus
  case readBackFails => simpa using hstatus
  all_goals simpa [State.xferRead] using hr

/-! ### The peripheral -/

theorem drawnBank_lt (c : Config) (d : Drawn) : d.bank c < 2 ^ bankW c := Nat.mod_lt _ (Nat.two_pow_pos _)

/-- What the invariant asks of the peripheral with its flash: the array canonical and inside the device, and an
`active_bank` of `BANK_W` bits (R30). -/
def State.deviceOk (s : State) : Prop := s.flashOk ∧ s.activeBank < 2 ^ bankW s.cfg

theorem deviceOk_of_eq {s t : State} (h : s.deviceOk) (hf : t.flash = s.flash) (hb : t.activeBank = s.activeBank)
    (hc : t.cfg = s.cfg) : t.deviceOk := by
  obtain ⟨hflash, hbank⟩ := h
  exact ⟨flashOk_of_eq hf hc hflash, by rw [hb, hc]; exact hbank⟩

theorem bankSelect_activeBank_lt {s : State} {b : Nat} (hb : b < 2 ^ bankW s.cfg) :
    (s.bankSelect b).activeBank < 2 ^ bankW s.cfg := by
  have hdrawn := drawnBank_lt s.cfg s.drawn
  simp only [State.bankSelect]
  repeat' split
  all_goals simpa

theorem memRead_activeBank_lt {s : State} (h : s.activeBank < 2 ^ bankW s.cfg) (pa n : Nat) :
    (s.memRead pa n).activeBank < 2 ^ bankW s.cfg := by
  have hdrawn := drawnBank_lt s.cfg s.drawn
  simp only [State.memRead]
  split <;> simpa

theorem reconfigure_activeBank (d : Drawn) (s : State) : (s.reconfigure d).activeBank = d.bank s.cfg := by
  unfold State.reconfigure; split <;> rfl

theorem State.Mutates.deviceOk {s t : State} (h : s.Mutates t) (hd : s.deviceOk) : t.deviceOk := by
  obtain ⟨hflash, hbank⟩ := hd
  have hdrawn := drawnBank_lt s.cfg s.drawn
  cases h
  · refine ⟨flashOk_program hflash _ _ _, ?_⟩
    simp only [State.program]
    repeat' split
    all_goals simpa
  · refine ⟨flashOk_eraseBlock hflash _ _, ?_⟩
    simp only [State.eraseBlock]
    repeat' split
    all_goals simpa

theorem State.Calls.deviceOk {s t : State} {f : Fsm} (h : s.Calls t f) (hd : s.deviceOk)
    (hreg : s.regs.bank < 2 ^ bankW s.cfg) : t.deviceOk := by
  obtain ⟨hflash, -⟩ := hd
  have hdrawn (d : Drawn) := drawnBank_lt s.cfg d
  cases h
  case bank => exact ⟨flashOk_bankSelect hflash _, by simpa using bankSelect_activeBank_lt hreg⟩
  case hsOpen =>
    exact ⟨flashOk_peripheralOpen hflash, by simpa [State.peripheralOpen, reconfigure_activeBank] using hdrawn _⟩
  case close =>
    exact ⟨flashOk_peripheralClose (s := { s with opened := false }) hflash,
      by simpa [State.peripheralClose, reconfigure_activeBank] using hdrawn _⟩
  all_goals
    exact ⟨flashOk_directWrite hflash _ _, by simpa [State.directWrite, reconfigure_activeBank] using hdrawn _⟩

theorem statusGet_deviceOk {s : State} (h : s.deviceOk) : s.statusGet.deviceOk :=
  ⟨flashOk_statusGet h.1, by simpa using h.2⟩

theorem directRead_deviceOk {s : State} (h : s.deviceOk) (n : Nat) : (s.directRead n).deviceOk :=
  ⟨flashOk_directRead h.1 n, by simpa [State.directRead, reconfigure_activeBank] using drawnBank_lt s.cfg s.drawn⟩

/-- Every way out of a sequencer state keeps the array canonical and `active_bank` within its width. -/
theorem State.Exit.deviceOk {s t : State} (h : s.Exit t) (hd : s.deviceOk) (hreg : s.regs.bank < 2 ^ bankW s.cfg) :
    t.deviceOk := by
  have hstatus := statusGet_deviceOk hd
  have hread := directRead_deviceOk hd s.cfg.srExpected.length
  cases h
  case copies =>
    exact ⟨flashOk_of_eq rfl rfl (flashOk_memRead hd.1 s.regs.pa s.regs.segLen),
      by simpa [State.xferRead] using memRead_activeBank_lt hd.2 _ _⟩
  case issues hm _ => exact hm.deviceOk hd
  case issueFails hm _ => exact hm.deviceOk hd
  case pollFails => exact ⟨flashOk_spoil hstatus.1 (busy := s.sampleBusy), hstatus.2⟩
  case completes => exact hstatus
  case timesOut =>
    have hdec : { s.statusGet with regs := { s.regs with pollCnt := s.regs.pollCnt - 1 } }.deviceOk := hstatus
    exact ⟨flashOk_late hdec.1 _, by simpa using hd.2⟩
  case pollsAgain => exact hstatus
  case called hcall _ => exact hcall.deviceOk hd hreg
  case callFails hcall _ => exact hcall.deviceOk hd hreg
  case readBackFails => exact hread
  case mismatches => exact hread
  case opens => exact hread
  all_goals exact hd

/-! ### The lifecycle (R170) -/

/-- `opened` is 1 only of a configured peripheral, and 0 inside the handshake. -/
def State.lifecycleOk (s : State) : Prop :=
  (s.opened = true → s.condition = .configured) ∧
    (s.fsm = .hsOpen ∨ s.fsm = .hsWren ∨ s.fsm = .hsWrsr ∨ s.fsm = .hsRdbk ∨ s.fsm = .hsRead → s.opened = false)

theorem lifecycleOk_of_closed {s : State} (h : s.opened = false) : s.lifecycleOk := by
  simp [State.lifecycleOk, h]

/-- Outside the handshake only the peripheral's condition matters. -/
theorem lifecycleOk_of_outside {s : State} (h : s.opened = true → s.condition = .configured)
    (hf : s.fsm ∉ [.hsOpen, .hsWren, .hsWrsr, .hsRdbk, .hsRead]) : s.lifecycleOk :=
  ⟨h, fun hs => absurd (by simpa using hs) hf⟩

/-- Every way out of a sequencer state keeps `opened` in order. -/
theorem State.Exit.lifecycleOk {s t : State} (h : s.Exit t) (hl : s.lifecycleOk) : t.lifecycleOk := by
  have ⟨hcond, hhs⟩ := hl
  cases h
  case waits => exact hl
  case lifecycle hop =>
    rcases hop with ⟨-, rfl⟩ | ⟨-, rfl⟩
    · by_cases ho : s.opened = true
      · exact lifecycleOk_of_outside hcond (by simp [ho])
      · exact lifecycleOk_of_closed (by simpa using ho)
    · exact lifecycleOk_of_outside hcond (by simp)
  case loads => exact lifecycleOk_of_outside hcond (by simp only; split <;> simp)
  case loadsErase => exact lifecycleOk_of_outside hcond (by simp only; split <;> simp)
  case advances => exact lifecycleOk_of_outside hcond (by simp only [State.visitAdv]; split <;> simp)
  case issues hm _ => exact lifecycleOk_of_outside (by simpa [hm.opened, hm.condition] using hcond) (by simp)
  case issueFails hm _ => exact lifecycleOk_of_outside (by simpa [hm.opened, hm.condition] using hcond) (by simp)
  case called hcall _ =>
    cases hcall
    case bank => exact lifecycleOk_of_outside (by simpa using hcond) (by simp)
    all_goals exact lifecycleOk_of_closed (by simp [*])
  case callFails hcall _ =>
    cases hcall
    case bank => exact lifecycleOk_of_outside (by simpa using hcond) (by simp)
    all_goals exact lifecycleOk_of_closed (by simp [*])
  case readBackFails => exact lifecycleOk_of_closed (by simp [*])
  case mismatches => exact lifecycleOk_of_closed (by simp [*])
  case opens => exact lifecycleOk_of_outside (fun _ => rfl) (by simp)
  all_goals
    exact lifecycleOk_of_outside (by simpa [State.visitXlate, State.visitSeg, State.xferRead] using hcond)
      (by simp [State.visitXlate, State.visitSeg, State.xferRead, *])

/-! ### The invariant as a whole -/

/-- The invariant by its parts. -/
theorem inv_iff (s : State) :
    s.Inv ↔ s.cfg.wf = true ∧ s.deviceOk ∧ s.lifecycleOk ∧ s.regs.fits s.cfg ∧ s.loopOk := by
  constructor
  · intro h
    exact ⟨h.config, ⟨⟨h.canonical, h.inside⟩, h.bank⟩, ⟨h.lifecycle, h.handshake⟩, h.registers, h.loop⟩
  · rintro ⟨hc, ⟨⟨hcan, hin⟩, hb⟩, ⟨hlife, hhs⟩, hr, hl⟩
    exact ⟨hc, hcan, hin, hlife, hhs, hb, hr, hl⟩

theorem State.Exit.inv {s t : State} (h : s.Exit t) (hs : s.Inv) : t.Inv := by
  rw [inv_iff] at hs ⊢
  obtain ⟨hc, hd, hlife, hr, hl⟩ := hs
  have hbank : s.regs.bank < 2 ^ bankW s.cfg := by
    obtain ⟨-, -, -, -, -, -, -, hbank, -⟩ := hr
    exact hbank
  refine ⟨?_, h.deviceOk hd hbank, h.lifecycleOk hlife, ?_, h.loopOk hc hl⟩ <;> rw [h.cfg]
  · exact hc
  · exact h.fits hc hl hr

/-- Outside the segment loop and the handshake the registers have to be within their widths and no more. -/
theorem inv_of_regs {s t : State} (h : s.Inv) (hcfg : t.cfg = s.cfg) (hflash : t.flash = s.flash)
    (hbank : t.activeBank = s.activeBank) (hcond : t.opened = true → t.condition = .configured)
    (hf : t.fsm = .idle ∨ t.fsm = .check ∨ t.fsm = .resp) (hregs : t.regs.fits s.cfg) : t.Inv := by
  rw [inv_iff] at h ⊢
  obtain ⟨hc, hd, -, -, -⟩ := h
  rw [hcfg]
  refine ⟨hc, deviceOk_of_eq hd hflash hbank hcfg, lifecycleOk_of_outside hcond ?_, hregs, loopOk_of_outside ?_⟩
  · rcases hf with e | e | e <;> simp [e]
  · rcases hf with e | e | e <;> rw [e] <;> rfl

/-- R85: a descriptor of `AW`-bit fields decodes to a command with `AW`-bit operands. -/
theorem wf_of_decode {c : Config} {d : Descriptor} {i : Instr} (hd : d.fits c = true) (h : decode d = .ok i) :
    i.wf c = true := by
  unfold decode at h
  split at h
  · cases h
  · split at h <;> cases h <;> simp_all [Instr.wf, Descriptor.fits]

theorem load_fits {c : Config} {i : Instr} {r : Regs} (hi : i.wf c = true) (h : r.fits c) : (i.load r).fits c := by
  have ⟨_, _, hrest⟩ := h
  cases i
  case read | program | write | erase =>
    simp only [Instr.wf, Bool.and_eq_true, decide_eq_true_eq] at hi
    exact ⟨hi.1, hi.2, hrest⟩
  all_goals exact h

/-- R81, R85: the operands that a descriptor of `AW`-bit fields loads fit their registers. -/
theorem loadDescriptor_fits {c : Config} {d : Descriptor} {r : Regs} (hd : d.fits c = true) (h : r.fits c) :
    (loadDescriptor d r).fits c := by
  unfold loadDescriptor
  split
  · exact load_fits (wf_of_decode hd (by assumption)) h
  · exact h

/-- Settles O56: an accepted descriptor loads operands that fit, and visits, rejections and resets keep the invariant. -/
theorem stepsKeepTheInvariant : Obligations.StepsKeepTheInvariant := by
  intro s t hs h
  refine step_keeps (P := State.Inv) ?_ ?_ ?_ ?_ ?_ hs h
  · intro u r hu
    have hl := hu.loop
    exact { hu with loop := { hl with } }
  · intro u q rest hu hfit
    exact inv_of_regs hu rfl rfl rfl hu.lifecycle (.inr (.inl rfl)) (loadDescriptor_fits hfit hu.registers)
  · exact fun u hu => (visit_exit u).inv hu
  · intro u hu
    exact inv_of_regs hu rfl rfl rfl hu.lifecycle (.inr (.inr rfl))
      (fits_latch (fits_clearLatch hu.registers) _ (Nat.two_pow_pos _))
  · intro u hu
    exact inv_of_regs hu rfl rfl rfl nofun (.inl rfl) fits_reset

/-- Settles O57: the flash is empty, the block closed and idle, and every register zero. -/
theorem resetMeetsTheInvariant : Obligations.ResetMeetsTheInvariant := by
  intro c hc
  have hflash : (State.resetOf c).flashOk := ⟨⟨.nil, nofun⟩, nofun⟩
  exact ⟨(inv_iff _).2 ⟨hc, ⟨hflash, Nat.two_pow_pos _⟩, lifecycleOk_of_closed rfl, fits_reset, loopOk_of_outside rfl⟩,
    rfl, rfl, rfl, rfl⟩

/-! ### The segment at the entry to `S_XFER` -/

/-- R119, R120: a granule that divides the window ends inside the window. -/
theorem remain_le_remainWindow {c : Config} (hw : 0 < c.window) {g : Nat} (hg : g ∣ c.window) (la : Nat) :
    g - la % g ≤ remainWindow c la := by
  have hend := granule_end_le hg (Nat.mod_lt la hw)
  rw [Nat.mod_mod_of_dvd la hg] at hend
  unfold remainWindow
  omega

/-- R163: ERASE translates the first byte of a block, in both modes. -/
theorem segmentStart_aligned {c : Config} {r : Regs} (ht : r.Transferring c) (hop : r.op = 4) :
    segmentStart c r.op r.cursor % c.eraseGran = 0 := by
  unfold segmentStart
  rw [if_pos hop]
  cases hmode : c.eraseMode
  · exact ht.aligned hop hmode
  · exact alignDownBlock_mod c _

/-- Settles O58, from what the invariant says of `pa` and `seg_len` in `S_XFER`. -/
theorem segmentFitsItsBankAndGranule : Obligations.SegmentFitsItsBankAndGranule := by
  intro s hs hf
  rw [inv_iff, loopOk_iff, hf] at hs
  obtain ⟨hc, -, -, -, ht, hloc, hm, -⟩ := hs
  obtain ⟨hw, -, -, -, heg, -, hpd, hed, -⟩ := wf_facts hc
  have ht := ht rfl
  have hleft := ht.left
  have hoff : s.regs.pa - s.cfg.baseAddress = segmentStart s.cfg s.regs.op s.regs.cursor % s.cfg.window := by
    rw [(hloc rfl).2, translatePa, Nat.add_sub_cancel_left]
  have hlen : s.regs.segLen = segmentLength s.cfg s.regs.op s.regs.cursor s.regs.remaining := hm rfl
  have hwin := remainWindow_pos hc s.regs.cursor
  have hpage := remainPage_pos hc s.regs.cursor
  have hpw : remainPage s.cfg s.regs.cursor ≤ remainWindow s.cfg s.regs.cursor := remain_le_remainWindow hw hpd _
  have hbw := remain_le_remainWindow hw hed (segmentStart s.cfg s.regs.op s.regs.cursor)
  have hal := segmentStart_aligned ht
  rw [hoff, hlen, Nat.mod_mod_of_dvd _ hed]
  simp only [remainWindow, remainPage] at hwin hpage hpw hbw
  rcases ht.op with hop | hop | hop <;> rw [hop] at hbw hal ⊢
  · have hstart : segmentStart s.cfg 2 s.regs.cursor = s.regs.cursor := rfl
    have hseg : segmentLength s.cfg 2 s.regs.cursor s.regs.remaining =
      min s.regs.remaining.toNat (s.cfg.window - s.regs.cursor % s.cfg.window) := rfl
    rw [hstart, hseg]
    exact ⟨by omega, by omega, fun _ => by omega, nofun, nofun⟩
  · have hstart : segmentStart s.cfg 3 s.regs.cursor = s.regs.cursor := rfl
    have hseg : segmentLength s.cfg 3 s.regs.cursor s.regs.remaining =
      min s.regs.remaining.toNat (s.cfg.progGran - s.regs.cursor % s.cfg.progGran) := rfl
    rw [hstart, hseg]
    exact ⟨by omega, by omega, fun _ => by omega, fun _ => by omega, nofun⟩
  · rw [hal rfl] at hbw
    rw [segmentLength_erase]
    exact ⟨heg, hbw, by simp, nofun, fun _ => ⟨rfl, hal rfl⟩⟩

end Sys2Proof.Machine
end

section
/-! Layer 6: noninterference (R26). The peripheral sees no working register but the arguments of its calls, and each
visit reads only registers that the command has written or loaded; so two runs that differ in the other registers go
through the same states but for them. -/

namespace Sys2Proof.Machine

/-! ### A state with other working registers -/

def State.withRegs (r : Regs) (s : State) : State := { s with regs := r }

section
variable (r : Regs) (s : State)

@[simp] theorem withRegs_regs : (s.withRegs r).regs = r := rfl
@[simp] theorem withRegs_cfg : (s.withRegs r).cfg = s.cfg := rfl
@[simp] theorem withRegs_fsm : (s.withRegs r).fsm = s.fsm := rfl
@[simp] theorem withRegs_opened : (s.withRegs r).opened = s.opened := rfl
@[simp] theorem withRegs_hb : (s.withRegs r).hb = s.hb := rfl
@[simp] theorem withRegs_resets : (s.withRegs r).resets = s.resets := rfl
@[simp] theorem withRegs_inFlight : (s.withRegs r).inFlight = s.inFlight := rfl
@[simp] theorem withRegs_busy : (s.withRegs r).busy = s.busy := rfl
@[simp] theorem withRegs_draw : (s.withRegs r).draw = s.draw.withRegs r := rfl
@[simp] theorem withRegs_drawn : (s.withRegs r).drawn = s.drawn := rfl
@[simp] theorem withRegs_nextStatus : (s.withRegs r).nextStatus = s.nextStatus := rfl
@[simp] theorem withRegs_ready : (s.withRegs r).ready = s.ready := rfl
@[simp] theorem withRegs_deviceAddress (pa : Nat) : (s.withRegs r).deviceAddress pa = s.deviceAddress pa := rfl
@[simp] theorem withRegs_directReadBytes (n : Nat) : (s.withRegs r).directReadBytes n = s.directReadBytes n := rfl
@[simp] theorem withRegs_goto (f : Fsm) : (s.withRegs r).goto f = (s.goto f).withRegs r := rfl
@[simp] theorem withRegs_log (p : Prim) : (s.withRegs r).log p = (s.log p).withRegs r := rfl
@[simp] theorem withRegs_raise (k : Kind) (n : Nat) :
    (s.withRegs r).raise k n = (s.goto .resp).withRegs (r.latch k n) := rfl
@[simp] theorem withRegs_spoil (busy : Bool) (d : Drawn) (da n : Nat) :
    (s.withRegs r).spoil busy d da n = (s.spoil busy d da n).withRegs r := rfl

@[simp] theorem withRegs_late (d : Drawn) : (s.withRegs r).late d = (s.late d).withRegs r := by
  unfold State.late
  rw [withRegs_inFlight]
  cases s.inFlight with
  | none => rfl
  | some f => cases f <;> rfl

@[simp] theorem withRegs_settle (d : Drawn) : (s.withRegs r).settle d = (s.settle d).withRegs r := by
  unfold State.settle
  rw [withRegs_inFlight]
  cases s.inFlight with
  | none => rfl
  | some f => cases d.ans.settled <;> rfl

@[simp] theorem withRegs_called : (s.withRegs r).called = s.called.withRegs r := by
  simp [State.called]

@[simp] theorem withRegs_sampleBusy : (s.withRegs r).sampleBusy = s.sampleBusy := by
  simp [State.sampleBusy]

@[simp] theorem withRegs_reconfigure (d : Drawn) : (s.withRegs r).reconfigure d = (s.reconfigure d).withRegs r := by
  unfold State.reconfigure
  rw [withRegs_busy]
  split <;> rfl

@[simp] theorem withRegs_windowBytes (pa n : Nat) : (s.withRegs r).windowBytes pa n = s.windowBytes pa n := by
  simp only [State.windowBytes, withRegs_called, withRegs_drawn]
  rfl

@[simp] theorem withRegs_statusGet : (s.withRegs r).statusGet = s.statusGet.withRegs r := by
  simp only [State.statusGet, withRegs_called, withRegs_nextStatus, withRegs_sampleBusy]
  rfl

@[simp] theorem withRegs_bankSelect (b : Nat) : (s.withRegs r).bankSelect b = (s.bankSelect b).withRegs r := by
  simp only [State.bankSelect, withRegs_called, withRegs_ready]
  split <;> rfl

@[simp] theorem withRegs_program (src : List Byte) (pa n : Nat) :
    (s.withRegs r).program src pa n = (s.program src pa n).withRegs r := by
  simp only [State.program, withRegs_called, withRegs_ready, withRegs_nextStatus]
  split
  · split <;> rfl
  · rfl

@[simp] theorem withRegs_eraseBlock (pa n : Nat) : (s.withRegs r).eraseBlock pa n = (s.eraseBlock pa n).withRegs r := by
  simp only [State.eraseBlock, withRegs_called, withRegs_ready, withRegs_nextStatus]
  split
  · split <;> rfl
  · rfl

@[simp] theorem withRegs_memRead (pa n : Nat) : (s.withRegs r).memRead pa n = (s.memRead pa n).withRegs r := by
  simp only [State.memRead, withRegs_called, withRegs_ready, withRegs_windowBytes]
  split <;> rfl

@[simp] theorem withRegs_peripheralOpen : (s.withRegs r).peripheralOpen = s.peripheralOpen.withRegs r := by
  simp only [State.peripheralOpen, withRegs_called, withRegs_drawn, withRegs_reconfigure]
  rfl

@[simp] theorem withRegs_directWrite (bytes : List Byte) (keep : Bool) :
    (s.withRegs r).directWrite bytes keep = (s.directWrite bytes keep).withRegs r := by
  simp only [State.directWrite, withRegs_called, withRegs_drawn, withRegs_reconfigure]
  rfl

@[simp] theorem withRegs_directRead (n : Nat) : (s.withRegs r).directRead n = (s.directRead n).withRegs r := by
  simp only [State.directRead, withRegs_called, withRegs_drawn, withRegs_reconfigure]
  rfl

@[simp] theorem withRegs_peripheralClose : (s.withRegs r).peripheralClose = s.peripheralClose.withRegs r := by
  simp only [State.peripheralClose, withRegs_called, withRegs_drawn, withRegs_reconfigure]
  rfl

end

/-! ### Two runs side by side -/

/-- What a visit of `f` or a later one reads of the working registers before the command has written it: two register
files that agree in it are the same to the rest of the command. -/
structure Regs.Agree (f : Fsm) (r r' : Regs) : Prop where
  op      : f ≠ .idle → r.op = r'.op
  buffer  : f = .check → r.op = 2 ∨ r.op = 3 → r.bufValid = r'.bufValid
  range   : f = .check → r.op = 2 ∨ r.op = 3 ∨ r.op = 4 → r.addr = r'.addr ∧ r.len = r'.len
  latch   : f ≠ .idle → f ≠ .check → r.stKind = r'.stKind ∧ r.stInfo = r'.stInfo ∧ r.value = r'.value
  cursor  : f.inLoop = true → r.cursor = r'.cursor ∧ r.remaining = r'.remaining
  offset  : f.inLoop = true → r.op ≠ 4 → r.bufOff = r'.bufOff
  located : f.hasBank = true → r.bank = r'.bank ∧ r.pa = r'.pa
  length  : f.hasLength = true → r.segLen = r'.segLen
  poll    : f = .poll → r.pollCnt = r'.pollCnt

/-- Two states that differ in working registers only, and in none that matters from here on. -/
def State.Agree (s s' : State) : Prop :=
  ∃ (t : State) (r r' : Regs), s = t.withRegs r ∧ s' = t.withRegs r' ∧ r.Agree t.fsm r'

theorem agree_withRegs {t : State} (f : Fsm) {r r' : Regs} (hf : t.fsm = f) (h : r.Agree f r') :
    (t.withRegs r).Agree (t.withRegs r') :=
  ⟨t, r, r', rfl, rfl, hf ▸ h⟩

/-- Outside the loop and `S_CHECK` only the response's registers matter. -/
theorem regsAgree_of_outside {f : Fsm} {r r' : Regs} (hin : f.inLoop = false) (hc : f ≠ .check) (hop : r.op = r'.op)
    (hl : r.stKind = r'.stKind ∧ r.stInfo = r'.stInfo ∧ r.value = r'.value) : r.Agree f r' := by
  cases f <;> simp [Fsm.inLoop] at hin hc <;>
    exact ⟨fun _ => hop, nofun, nofun, fun _ _ => hl, nofun, nofun, nofun, nofun, nofun⟩

/-- What `g` asks of the registers, `f` asks too. -/
abbrev Fsm.Asks (f g : Fsm) : Prop :=
  f ≠ .idle ∧ f ≠ .check ∧ g ≠ .check ∧ g ≠ .poll ∧ (g.inLoop = true → f.inLoop = true) ∧
    (g.hasBank = true → f.hasBank = true) ∧ (g.hasLength = true → f.hasLength = true)

/-- A visit that leaves the registers alone and asks no more of them. -/
theorem Regs.Agree.mono {f g : Fsm} {r r' : Regs} (h : r.Agree f r') (hfg : f.Asks g) : r.Agree g r' := by
  obtain ⟨hi, hc, hgc, hgp, hin, hb, hl⟩ := hfg
  exact {
    op := fun _ => h.op hi
    buffer := fun e => absurd e hgc
    range := fun e => absurd e hgc
    latch := fun _ _ => h.latch hi hc
    cursor := fun e => h.cursor (hin e)
    offset := fun e => h.offset (hin e)
    located := fun e => h.located (hb e)
    length := fun e => h.length (hl e)
    poll := fun e => absurd e hgp }

/-- An error ends the command: the response is the same, since the latch and the value are. -/
theorem agree_raise {t : State} {f : Fsm} {r r' : Regs} (h : r.Agree f r') (hf : f ≠ .idle ∧ f ≠ .check) (k : Kind)
    (n : Nat) : ((t.goto .resp).withRegs (r.latch k n)).Agree ((t.goto .resp).withRegs (r'.latch k n)) := by
  obtain ⟨hi, hc⟩ := hf
  obtain ⟨-, -, hv⟩ := h.latch hi hc
  exact agree_withRegs .resp rfl (regsAgree_of_outside rfl nofun (h.op hi) ⟨rfl, rfl, hv⟩)

/-- A call whose success only moves the sequencer on, with the same arguments in both runs. -/
theorem agree_call {t : State} {f g : Fsm} {r r' : Regs} {n : Nat} (h : r.Agree f r') (hf : f ≠ .idle ∧ f ≠ .check)
    (hg : r.Agree g r') :
    (if n = 0 then (t.goto g).withRegs r else (t.goto .resp).withRegs (r.latch .deviceError n)).Agree
      (if n = 0 then (t.goto g).withRegs r' else (t.goto .resp).withRegs (r'.latch .deviceError n)) := by
  split
  · exact agree_withRegs g rfl hg
  · exact agree_raise h hf _ _

/-! ### One lemma per sequencer state -/

section
variable {s : State} {r r' : Regs}

/-- The registers of a transfer that starts at `cursor`. -/
def Regs.start (cursor off : Nat) (r : Regs) : Regs :=
  { r with cursor := cursor, bufOff := off, remaining := (r.len : Int) }

/-- VALIDATE_RANGE and the start of the loop, with the registers apart from the rest of the state. -/
def State.startOrReject (cursor off : Nat) (r : Regs) (s : State) : State :=
  if s.cfg.totalSize < r.addr + r.len then (s.goto .resp).withRegs (r.latch .invalidAddress 0)
  else (s.goto (if r.len = 0 then .resp else .xlate)).withRegs (r.start cursor off)

theorem checkBuffer_withRegs (r : Regs) (s : State) :
    (s.withRegs r).checkBuffer =
      if r.bufValid then s.startOrReject r.addr 0 r else (s.goto .resp).withRegs (r.latch .invalidArgument 0) := by
  unfold State.startOrReject
  rcases checkBuffer_cases (s.withRegs r) with ⟨hb, e⟩ | ⟨hb, hr, e⟩ | ⟨hb, hr, e⟩ <;>
    rw [withRegs_regs] at hb <;> rw [e, hb]
  · rfl
  · rw [withRegs_regs, withRegs_cfg] at hr
    rw [if_pos rfl, if_pos hr]
    rfl
  · rw [withRegs_regs, withRegs_cfg] at hr
    rw [if_pos rfl, if_neg (Nat.not_lt.2 hr)]
    rfl

theorem checkErase_withRegs (r : Regs) (s : State) :
    (s.withRegs r).checkErase = s.startOrReject (eraseStart s.cfg r.addr) r.bufOff r := by
  unfold State.startOrReject
  rcases checkErase_cases (s.withRegs r) with ⟨hr, e⟩ | ⟨hr, e⟩ <;>
    rw [withRegs_regs, withRegs_cfg] at hr <;> rw [e]
  · rw [if_pos hr]
    rfl
  · rw [if_neg (Nat.not_lt.2 hr)]
    rfl

theorem startOrReject_agree (hop : r.op = r'.op) (hrange : r.addr = r'.addr ∧ r.len = r'.len)
    (hlatch : r.stKind = r'.stKind ∧ r.stInfo = r'.stInfo ∧ r.value = r'.value) {cursor off off' : Nat}
    (hoff : r.op ≠ 4 → off = off') :
    (s.startOrReject cursor off r).Agree (s.startOrReject cursor off' r') := by
  obtain ⟨haddr, hlen⟩ := hrange
  have hrem : (r.len : Int) = r'.len := by rw [hlen]
  unfold State.startOrReject
  rw [← haddr, ← hlen]
  repeat' split
  · exact agree_withRegs .resp rfl (regsAgree_of_outside rfl nofun hop ⟨rfl, rfl, hlatch.2.2⟩)
  · exact agree_withRegs .resp rfl (regsAgree_of_outside rfl nofun hop hlatch)
  · exact agree_withRegs .xlate rfl ⟨fun _ => hop, nofun, nofun, fun _ _ => hlatch, fun _ => ⟨rfl, hrem⟩, fun _ => hoff,
      nofun, nofun, nofun⟩

theorem checkBuffer_agree (hop : r.op = r'.op) (hbuf : r.bufValid = r'.bufValid)
    (hrange : r.addr = r'.addr ∧ r.len = r'.len)
    (hlatch : r.stKind = r'.stKind ∧ r.stInfo = r'.stInfo ∧ r.value = r'.value) :
    (s.withRegs r).checkBuffer.Agree (s.withRegs r').checkBuffer := by
  rw [checkBuffer_withRegs, checkBuffer_withRegs, ← hbuf, ← hrange.1]
  split
  · exact startOrReject_agree hop hrange hlatch fun _ => rfl
  · exact agree_withRegs .resp rfl (regsAgree_of_outside rfl nofun hop ⟨rfl, rfl, hlatch.2.2⟩)

theorem checkErase_agree (hop : r.op = r'.op) (h4 : r.op = 4) (hrange : r.addr = r'.addr ∧ r.len = r'.len)
    (hlatch : r.stKind = r'.stKind ∧ r.stInfo = r'.stInfo ∧ r.value = r'.value) :
    (s.withRegs r).checkErase.Agree (s.withRegs r').checkErase := by
  rw [checkErase_withRegs, checkErase_withRegs, ← hrange.1]
  exact startOrReject_agree hop hrange hlatch fun h => absurd h4 h

theorem visitCheck_agree (h : r.Agree .check r') :
    (s.withRegs r).visitCheck.Agree (s.withRegs r').visitCheck := by
  have hop := h.op nofun
  have hlatch : r.clearLatch.stKind = r'.clearLatch.stKind ∧ r.clearLatch.stInfo = r'.clearLatch.stInfo ∧
      r.clearLatch.value = r'.clearLatch.value := ⟨rfl, rfl, rfl⟩
  have hends {f : Fsm} (hin : f.inLoop = false) (hc : f ≠ .check) :
      ((s.goto f).withRegs r.clearLatch).Agree ((s.goto f).withRegs r'.clearLatch) :=
    agree_withRegs f rfl (regsAgree_of_outside hin hc hop hlatch)
  have hanswers (v : Nat) :
      ((s.withRegs r.clearLatch).answerValue v).Agree ((s.withRegs r'.clearLatch).answerValue v) :=
    agree_withRegs (t := s.goto .resp) .resp rfl (regsAgree_of_outside rfl nofun hop ⟨rfl, rfl, rfl⟩)
  have named {k : Opcode} (hk : r.op.toNat = k.toNat) : r.op = k := BitVec.eq_of_toNat_eq hk
  have hclear (ρ : Regs) : { s.withRegs ρ with regs := (s.withRegs ρ).regs.clearLatch } = s.withRegs ρ.clearLatch := rfl
  simp only [State.visitCheck, hclear]
  simp only [withRegs_regs, withRegs_cfg, clearLatch_op, withRegs_goto, withRegs_opened, withRegs_raise, ← hop]
  split
  case h_1 => exact hends (f := if s.opened then .resp else .hsOpen) (by split <;> rfl) (by split <;> nofun)
  case h_2 => exact hends rfl nofun
  case h_3 h2 =>
    have h2 := named (k := 2) h2
    exact checkBuffer_agree hop (h.buffer rfl (.inl h2)) (h.range rfl (.inl h2)) hlatch
  case h_4 h3 =>
    have h3 := named (k := 3) h3
    exact checkBuffer_agree hop (h.buffer rfl (.inr h3)) (h.range rfl (.inr (.inl h3))) hlatch
  case h_5 h4 =>
    have h4 := named (k := 4) h4
    exact checkErase_agree hop h4 (h.range rfl (.inr (.inr h4))) hlatch
  case h_6 => exact hanswers _
  case h_7 => exact hanswers _
  case h_8 => exact hanswers _
  case h_9 => exact hanswers _
  case h_10 => exact hends rfl nofun
  case h_11 => exact agree_withRegs .resp rfl (regsAgree_of_outside rfl nofun hop ⟨rfl, rfl, rfl⟩)

theorem visitXlate_agree (h : r.Agree .xlate r') :
    (s.withRegs r).visitXlate.Agree (s.withRegs r').visitXlate := by
  have hop := h.op nofun
  obtain ⟨hcur, hrem⟩ := h.cursor rfl
  refine agree_withRegs (t := s.goto .bank) .bank rfl ?_
  simp only [withRegs_regs, withRegs_cfg, ← hop, ← hcur]
  exact ⟨fun _ => rfl, nofun, nofun, fun _ _ => h.latch nofun nofun, fun _ => ⟨rfl, hrem⟩, fun _ => h.offset rfl,
    fun _ => ⟨rfl, rfl⟩, nofun, nofun⟩

theorem visitBank_agree (h : r.Agree .bank r') :
    (s.withRegs r).visitBank.Agree (s.withRegs r').visitBank := by
  obtain ⟨hbank, -⟩ := h.located rfl
  simp only [State.visitBank, withRegs_regs, withRegs_bankSelect, withRegs_nextStatus, withRegs_goto, withRegs_raise, hbank]
  exact agree_call h (by decide) (h.mono (by decide))

theorem visitSeg_agree (h : r.Agree .seg r') :
    (s.withRegs r).visitSeg.Agree (s.withRegs r').visitSeg := by
  have hop := h.op nofun
  obtain ⟨hcur, hrem⟩ := h.cursor rfl
  refine agree_withRegs (t := s.goto .xfer) .xfer rfl ?_
  simp only [withRegs_regs, withRegs_cfg, ← hop, ← hcur, ← hrem]
  exact ⟨fun _ => rfl, nofun, nofun, fun _ _ => h.latch nofun nofun, fun _ => ⟨rfl, rfl⟩, fun _ => h.offset rfl,
    fun _ => h.located rfl, fun _ => rfl, nofun⟩

/-- A `program` or `erase_block` call with the same arguments in both runs. -/
theorem issue_agree {t : State} {n : Nat} (h : r.Agree .xfer r') :
    (if n = 0 then (t.withRegs r).startPoll else (t.goto .resp).withRegs (r.latch .deviceError n)).Agree
      (if n = 0 then (t.withRegs r').startPoll else (t.goto .resp).withRegs (r'.latch .deviceError n)) := by
  split
  · exact agree_withRegs (t := t.goto .poll) .poll rfl ⟨fun _ => h.op nofun, nofun, nofun, fun _ _ => h.latch nofun nofun,
      fun _ => h.cursor rfl, fun _ => h.offset rfl, fun _ => h.located rfl, fun _ => h.length rfl, fun _ => rfl⟩
  · exact agree_raise h (by decide) _ _

theorem visitXfer_agree (h : r.Agree .xfer r') :
    (s.withRegs r).visitXfer.Agree (s.withRegs r').visitXfer := by
  have hop := h.op nofun
  obtain ⟨-, hpa⟩ := h.located rfl
  have hlen := h.length rfl
  simp only [State.visitXfer, withRegs_regs, ← hop]
  by_cases h2 : r.op = 2
  · have hoff := h.offset rfl (by simp [h2])
    simp only [if_pos h2, State.xferRead, withRegs_regs, withRegs_hb, withRegs_memRead, withRegs_windowBytes, ← hpa,
      ← hlen, ← hoff]
    exact agree_withRegs (t := { s.memRead r.pa r.segLen with
      hb := bufWrite s.hb r.bufOff (s.windowBytes r.pa r.segLen), fsm := .adv }) .adv rfl (h.mono (by decide))
  · by_cases h3 : r.op = 3
    · have hoff := h.offset rfl (by simp [h3])
      simp only [if_neg h2, if_pos h3, State.xferProgram, withRegs_regs, withRegs_hb, withRegs_program,
        withRegs_nextStatus, withRegs_raise, ← hpa, ← hlen, ← hoff]
      exact issue_agree h
    · simp only [if_neg h2, if_neg h3, State.xferErase, withRegs_regs, withRegs_eraseBlock, withRegs_nextStatus,
        withRegs_raise, ← hpa, ← hlen]
      exact issue_agree h

/-- The registers after one more busy sample. -/
def Regs.countDown (r : Regs) : Regs := { r with pollCnt := r.pollCnt - 1 }

/-- One sample, with the registers apart from the rest of the state. -/
theorem visitPoll_withRegs (r : Regs) (s : State) :
    (s.withRegs r).visitPoll =
      if s.nextStatus ≠ 0 then
        ((s.statusGet.spoil s.sampleBusy s.drawn (s.statusGet.deviceAddress r.pa) r.segLen).goto .resp).withRegs
          (r.latch .deviceError s.nextStatus)
      else if s.sampleBusy = false then (s.statusGet.goto .adv).withRegs r
      else if r.pollCnt - 1 = 0 then ((s.statusGet.late s.drawn).goto .resp).withRegs (r.countDown.latch .timeout 0)
      else s.statusGet.withRegs r.countDown := by
  have hdec : { s.statusGet.withRegs r with regs := { (s.statusGet.withRegs r).regs with
      pollCnt := (s.statusGet.withRegs r).regs.pollCnt - 1 } } = s.statusGet.withRegs r.countDown := rfl
  simp only [State.visitPoll, withRegs_statusGet, hdec]
  simp

theorem countDown_agree (h : r.Agree .poll r') : r.countDown.Agree .poll r'.countDown := by
  have hcnt : r.pollCnt - 1 = r'.pollCnt - 1 := by rw [h.poll rfl]
  exact ⟨fun _ => h.op nofun, nofun, nofun, fun _ _ => h.latch nofun nofun, fun _ => h.cursor rfl, fun _ => h.offset rfl,
    fun _ => h.located rfl, fun _ => h.length rfl, fun _ => hcnt⟩

theorem visitPoll_agree (h : r.Agree .poll r') (hf : s.fsm = .poll) :
    (s.withRegs r).visitPoll.Agree (s.withRegs r').visitPoll := by
  obtain ⟨-, hpa⟩ := h.located rfl
  have hlen := h.length rfl
  have hdec := countDown_agree h
  rw [visitPoll_withRegs, visitPoll_withRegs, ← hpa, ← hlen, ← h.poll rfl]
  repeat' split
  · exact agree_raise h (by decide) _ _
  · exact agree_withRegs .adv rfl (h.mono (by decide))
  · exact agree_raise hdec (by decide) _ _
  · exact agree_withRegs .poll (by simpa using hf) hdec

theorem visitAdv_withRegs (r : Regs) (s : State) :
    (s.withRegs r).visitAdv =
      (s.goto (if r.remaining - (advanceStep s.cfg r.op r.cursor r.segLen : Int) > 0 then .xlate else .resp)).withRegs
        (r.advance (advanceStep s.cfg r.op r.cursor r.segLen)) := rfl

theorem advance_agree (h : r.Agree .adv r') (n : Nat) : (r.advance n).Agree .xlate (r'.advance n) := by
  have hop := h.op nofun
  obtain ⟨hcur, hrem⟩ := h.cursor rfl
  refine ⟨fun _ => hop, nofun, nofun, fun _ _ => h.latch nofun nofun, fun _ => ?_, fun _ h4 => ?_, nofun, nofun, nofun⟩
  · simp [Regs.advance, hcur, hrem]
  · have hoff := h.offset rfl h4
    simp only [Regs.advance, ← hop, hoff]

theorem visitAdv_agree (h : r.Agree .adv r') :
    (s.withRegs r).visitAdv.Agree (s.withRegs r').visitAdv := by
  have hop := h.op nofun
  obtain ⟨hcur, hrem⟩ := h.cursor rfl
  have hlen := h.length rfl
  rw [visitAdv_withRegs, visitAdv_withRegs, ← hop, ← hcur, ← hrem, ← hlen]
  split
  · exact agree_withRegs .xlate rfl (advance_agree h _)
  · exact agree_withRegs .resp rfl ((advance_agree h _).mono (by decide))

theorem visitHsOpen_agree (h : r.Agree .hsOpen r') :
    (s.withRegs r).visitHsOpen.Agree (s.withRegs r').visitHsOpen := by
  simp only [State.visitHsOpen, withRegs_nextStatus, withRegs_peripheralOpen, withRegs_goto, withRegs_raise]
  exact agree_call h (by decide) (h.mono (by decide))

theorem visitHsWren_agree (h : r.Agree .hsWren r') :
    (s.withRegs r).visitHsWren.Agree (s.withRegs r').visitHsWren := by
  simp only [State.visitHsWren, withRegs_nextStatus, withRegs_cfg, withRegs_directWrite, withRegs_goto, withRegs_raise]
  exact agree_call h (by decide) (h.mono (by decide))

theorem visitHsWrsr_agree (h : r.Agree .hsWrsr r') :
    (s.withRegs r).visitHsWrsr.Agree (s.withRegs r').visitHsWrsr := by
  simp only [State.visitHsWrsr, withRegs_nextStatus, withRegs_cfg, withRegs_directWrite, withRegs_goto, withRegs_raise]
  exact agree_call h (by decide) (h.mono (by decide))

theorem visitHsRdbk_agree (h : r.Agree .hsRdbk r') :
    (s.withRegs r).visitHsRdbk.Agree (s.withRegs r').visitHsRdbk := by
  simp only [State.visitHsRdbk, withRegs_nextStatus, withRegs_cfg, withRegs_directWrite, withRegs_goto, withRegs_raise]
  exact agree_call h (by decide) (h.mono (by decide))

theorem visitHsRead_agree (h : r.Agree .hsRead r') :
    (s.withRegs r).visitHsRead.Agree (s.withRegs r').visitHsRead := by
  simp only [State.visitHsRead, withRegs_nextStatus, withRegs_cfg, withRegs_directRead, withRegs_directReadBytes,
    withRegs_raise]
  repeat' split
  · exact agree_raise h (by decide) _ _
  · exact agree_withRegs (t := { s.directRead s.cfg.srExpected.length with
      opened := true, condition := .configured, fsm := .resp }) .resp rfl (h.mono (by decide))
  · exact agree_raise h (by decide) _ _

theorem visitClose_agree (h : r.Agree .close r') :
    (s.withRegs r).visitClose.Agree (s.withRegs r').visitClose := by
  have hclosed (ρ : Regs) : { s.withRegs ρ with opened := false } = { s with opened := false }.withRegs ρ := rfl
  simp only [State.visitClose, hclosed, withRegs_nextStatus, withRegs_peripheralClose, withRegs_goto, withRegs_raise]
  exact agree_call h (by decide) (h.mono (by decide))

theorem response_withRegs (r : Regs) (s : State) :
    (s.withRegs r).response = ⟨r.stKind, r.stInfo, if r.stKind = .ok then r.value else 0,
      if r.op = 9 ∧ r.stKind = .ok then s.cfg.typeString else []⟩ := rfl

theorem respond_agree (h : r.Agree .resp r') : (s.withRegs r).respond.Agree (s.withRegs r').respond := by
  have hop := h.op nofun
  obtain ⟨hkind, hinfo, hvalue⟩ := h.latch nofun nofun
  have hresp : (s.withRegs r').response = (s.withRegs r).response := by
    rw [response_withRegs, response_withRegs, hop, hkind, hinfo, hvalue]
  unfold State.respond
  rw [hresp]
  exact agree_withRegs (t := { s with hr := some (s.withRegs r).response, fsm := .idle }) .idle rfl
    ⟨nofun, nofun, nofun, nofun, nofun, nofun, nofun, nofun, nofun⟩

end

/-! ### The whole command -/

/-- Two states that agree go to states that agree, in every sequencer state. -/
theorem visit_agree {s s' : State} (h : s.Agree s') : s.visit.Agree s'.visit := by
  obtain ⟨t, r, r', rfl, rfl, h⟩ := h
  unfold State.visit
  simp only [withRegs_fsm]
  cases hf : t.fsm <;> rw [hf] at h
  · exact agree_withRegs .idle hf h
  · exact visitCheck_agree h
  · exact visitXlate_agree h
  · exact visitBank_agree h
  · exact visitSeg_agree h
  · exact visitXfer_agree h
  · exact visitPoll_agree h hf
  · exact visitAdv_agree h
  · exact visitHsOpen_agree h
  · exact visitHsWren_agree h
  · exact visitHsWrsr_agree h
  · exact visitHsRdbk_agree h
  · exact visitHsRead_agree h
  · exact visitClose_agree h
  · exact respond_agree h

theorem State.Agree.fsm_eq {s s' : State} (h : s.Agree s') : s'.fsm = s.fsm := by
  obtain ⟨t, r, r', rfl, rfl, -⟩ := h
  rfl

theorem State.Agree.resets_eq {s s' : State} (h : s.Agree s') : s'.resets = s.resets := by
  obtain ⟨t, r, r', rfl, rfl, -⟩ := h
  rfl

/-- Without a reset, runs from states that agree stay side by side. -/
theorem run_agree (n : Nat) {s s' : State} (hr : s.resets = []) (h : s.Agree s') : (s.run n).Agree (s'.run n) := by
  induction n generalizing s s' with
  | zero => exact h
  | succ n ih =>
    by_cases hi : s.fsm = .idle
    · rw [run_of_idle hi, run_of_idle (h.fsm_eq.trans hi)]
      exact h
    · rw [run_succ hi, run_succ (h.fsm_eq ▸ hi)]
      refine ih (tick_resets_of_nil hr) ?_
      rw [tick_of_noReset hr, tick_of_noReset (h.resets_eq.trans hr)]
      exact visit_agree h

/-- A run that is given its budget ends in the same state, whatever more it is given. -/
theorem run_add_of_budget {s : State} (hc : s.cfg.wf = true) {n : Nat} (hn : s.budget ≤ n) (k : Nat) :
    s.run (n + k) = s.run n := by
  rw [run_add, run_of_idle (run_fsm_of_budget hc hn)]

/-- A command's registers after its acceptance agree in all that its format loads (R83), whatever they held. -/
theorem load_agree (i : Instr) (r r' : Regs) : (i.load r).Agree .check (i.load r') where
  op := fun _ => by simp
  buffer := fun _ h => by cases i <;> simp_all [Instr.load, Instr.opcode]
  range := fun _ h => by cases i <;> simp_all [Instr.load, Instr.opcode]
  latch := fun _ h => absurd rfl h
  cursor := nofun
  offset := nofun
  located := nofun
  length := nofun
  poll := nofun

theorem bufferFits_withRegs (i : Instr) (r : Regs) (s : State) : (s.withRegs r).bufferFits i = s.bufferFits i := by
  cases i <;> rfl

/-- What is observed of two idle states that agree is the same. -/
theorem observe_eq_of_agree {s s' : State} (h : s.Agree s') : observe (.next s) = observe (.next s') := by
  obtain ⟨t, r, r', rfl, rfl, -⟩ := h
  rfl

/-- Settles O47: the two runs start with registers that agree, stay side by side, and each has the steps it needs. -/
theorem workingRegistersAreEphemeral : Obligations.WorkingRegistersAreEphemeral := by
  intro i s r hc hr
  change observe (exec i (s.withRegs r)) = observe (exec i s)
  have hbuf := bufferFits_withRegs i r s
  by_cases hb : s.bufferFits i = true
  · by_cases hi : s.fsm = .idle
    · rw [exec_of_idle (hbuf.trans hb) hi, exec_of_idle hb hi]
      have hlong (u : State) (hu : u.cfg.wf = true) (n : Nat) :
          (u.accept (i.load u.regs)).run (commandBound i u) = (u.accept (i.load u.regs)).run (commandBound i u + n) :=
        (run_add_of_budget (s := u.accept (i.load u.regs)) hu (budget_accept i u) n).symm
      rw [hlong (s.withRegs r) hc (commandBound i s), hlong s hc (commandBound i (s.withRegs r)),
        Nat.add_comm (commandBound i s)]
      refine observe_eq_of_agree (run_agree _ hr ?_)
      exact agree_withRegs (t := s.accept s.regs) .check rfl (load_agree i r s.regs)
    · simp [exec_eq_command, State.command, hbuf, hb, hi]
  · simp [exec_eq_command, hbuf, hb]

end Sys2Proof.Machine
end

section
/-! Settling the statements of spec/20_memory.md: a short buffer is the one refusal of an idle block (R51); every
command ends with the response that its registers hold (R71, R91, R215), and an Ok leaves the device idle (R65, R261). -/

namespace Sys2Proof.Machine

/-! ### Refusal -/

theorem validateRange_eq_ok_iff (c : Config) (address length : Nat) :
    validateRange c address length = .ok ↔ address + length ≤ c.totalSize := by
  unfold validateRange
  split
  · simp; omega
  · simp; omega

/-- R51, U14: a buffer is too short for a command that refers to it and passes validation. -/
theorem bufferTooShort_iff (bv : Bool) (address length : Nat) (s : State) :
    s.bufferTooShort bv address length = true ↔
      bv = true ∧ address + length ≤ s.cfg.totalSize ∧ s.hb.length < length := by
  simp [State.bufferTooShort, validateRange_eq_ok_iff, and_assoc]

/-- Only READ, PROGRAM and WRITE need a buffer. -/
theorem bufferFits_eq_false_iff (i : Instr) (s : State) :
    s.bufferFits i = false ↔ ∃ address length,
      (i = .read true address length ∨ i = .program true address length ∨ i = .write true address length) ∧
        address + length ≤ s.cfg.totalSize ∧ s.hb.length < length := by
  have short (bv : Bool) (address length : Nat) :
      (!s.bufferTooShort bv address length) = false ↔
        bv = true ∧ address + length ≤ s.cfg.totalSize ∧ s.hb.length < length := by
    rw [Bool.not_eq_false', bufferTooShort_iff]
  cases i
  case read bv address length => simpa [State.bufferFits, and_assoc] using short bv address length
  case program bv address length => simpa [State.bufferFits, and_assoc] using short bv address length
  case write bv address length => simpa [State.bufferFits, and_assoc] using short bv address length
  all_goals simp [State.bufferFits]

/-- Settles O25: an idle block runs every command whose buffer fits, and refuses every other. -/
theorem onlyAShortBufferIsRefused : Obligations.OnlyAShortBufferIsRefused := by
  intro i s hi
  rw [← bufferFits_eq_false_iff]
  cases hb : s.bufferFits i
  · have hrefused : exec i s = .refused .bufferTooShort := by simp [exec_eq_command, hb]
    exact ⟨by simp [hrefused], fun h => absurd hrefused h⟩
  · have hruns := exec_of_idle hb hi
    exact ⟨by simp [hruns], fun _ => ⟨_, hruns⟩⟩

/-! ### Every command ends with its response -/

/-- R71: a command of a legal configuration leaves the block idle. -/
theorem exec_fsm {i : Instr} {s t : State} (hc : s.cfg.wf = true) (h : exec i s = .next t) : t.fsm = .idle := by
  obtain ⟨-, -, rfl⟩ := exec_next h
  exact run_fsm_of_budget (s := s.accept (i.load s.regs)) hc (budget_accept i s)

/-- Without a reset, what acceptance establishes and every visit of a running command keeps holds of the state the
command leaves. -/
theorem exec_keeps_of_visit {P : State → Prop} {i : Instr} {s t : State} (hr : s.resets = []) (h : exec i s = .next t)
    (hacc : P (s.accept (i.load s.regs))) (hvisit : ∀ u : State, u.fsm ≠ .idle → P u → P u.visit) : P t := by
  refine (exec_keeps (P := fun u => u.resets = [] ∧ P u) h ⟨hr, hacc⟩ fun u hi ⟨hu, hP⟩ => ?_).2
  exact ⟨tick_resets_of_nil hu, tick_of_noReset hu ▸ hvisit u hi hP⟩

/-- R23: a command becomes idle by the delivery of its response only. -/
theorem visit_eq_respond {s : State} (hi : s.fsm ≠ .idle) (h : s.visit.fsm = .idle) : s.visit = s.respond := by
  have hnext : .idle ∈ s.fsm.successors := h ▸ (visit_exit s).successors hi
  have hresp : s.fsm = .resp := by
    cases hf : s.fsm <;> simp [hf, Fsm.successors] at hnext ⊢
  simp [State.visit, hresp]

/-- R89, R215: without a reset a command of a legal configuration leaves the response that its registers hold. -/
theorem exec_hr {i : Instr} {s t : State} (hc : s.cfg.wf = true) (hr : s.resets = []) (h : exec i s = .next t) :
    t.hr = some t.response := by
  refine exec_keeps_of_visit (P := fun u => u.fsm = .idle → u.hr = some u.response) hr h nofun ?_ (exec_fsm hc h)
  intro u hi _ hidle
  rw [visit_eq_respond hi hidle]
  rfl

/-! ### The kinds a command may answer (R91) -/

theorem opcode_lt_ten (i : Instr) : i.opcode.toNat < 10 := by
  cases i <;> simp [Instr.opcode]

theorem ok_mem_kinds (i : Instr) : .ok ∈ i.kinds := by
  cases i <;> simp [Instr.kinds]

theorem deviceError_mem_kinds {i : Instr} (h : i.opcode.toNat < 5) : .deviceError ∈ i.kinds := by
  cases i <;> simp [Instr.kinds, Instr.opcode] at h ⊢

theorem timeout_mem_kinds {i : Instr} (h : i.opcode = 3 ∨ i.opcode = 4) : .timeout ∈ i.kinds := by
  cases i <;> simp [Instr.kinds, Instr.opcode] at h ⊢

theorem invalidAddress_mem_kinds {i : Instr} (h : i.opcode = 2 ∨ i.opcode = 3 ∨ i.opcode = 4) :
    .invalidAddress ∈ i.kinds := by
  cases i <;> simp [Instr.kinds, Instr.opcode] at h ⊢

theorem invalidArgument_mem_kinds {i : Instr} (h : i.opcode = 2 ∨ i.opcode = 3) : .invalidArgument ∈ i.kinds := by
  cases i <;> simp [Instr.kinds, Instr.opcode] at h ⊢

/-- What `S_CHECK` rejects a command with is a kind the command may answer. -/
theorem State.Rejected.mem_kinds {i : Instr} {s : State} {k : Kind} (h : s.Rejected k) (hop : s.regs.op = i.opcode) :
    k ∈ i.kinds := by
  unfold State.Rejected at h
  rw [hop] at h
  rcases h with ⟨rfl, ⟨h23, -⟩ | h10⟩ | ⟨rfl, h234, -⟩
  · exact invalidArgument_mem_kinds h23
  · exact absurd h10 (by have := opcode_lt_ten i; omega)
  · exact invalidAddress_mem_kinds h234

/-! ### The status latch and `value` along a command (R28) -/

theorem State.Calls.fsm_ne_check {s t : State} {f : Fsm} (h : s.Calls t f) : s.fsm ≠ .check := by
  cases h <;> simp [*]

/-- What `S_CHECK` writes to the latch and to `value`: Ok or the reason of a rejection, nothing or a query's answer. -/
theorem State.Exit.latch_of_check {s t : State} (h : s.Exit t) (hf : s.fsm = .check) :
    (t.regs.stKind = .ok ∨ s.Rejected t.regs.stKind) ∧
      (t.regs.value = 0 ∨ (s.regs.op, t.regs.value) ∈ queryValues s.cfg) := by
  cases h
  case rejects hk => exact ⟨.inr hk, .inl rfl⟩
  case answers hv => exact ⟨.inl rfl, .inr hv⟩
  case called hc _ => exact absurd hf hc.fsm_ne_check
  case callFails hc _ => exact absurd hf hc.fsm_ne_check
  all_goals simp_all [Regs.clearLatch]

/-- After `S_CHECK` no visit writes `value`, and the latch changes where a primitive call fails or a poll runs out. -/
theorem State.Exit.latch_after_check {s t : State} (h : s.Exit t) (hf : s.fsm ≠ .check) :
    t.regs.value = s.regs.value ∧
      (t.regs.stKind = s.regs.stKind ∨
        t.regs.stKind = .deviceError ∧ (s.fsm.inLoop = true ∨ s.fsm.inLifecycle = true) ∨
        t.regs.stKind = .timeout ∧ s.fsm = .poll) := by
  cases h
  case issues hm _ => simp [hm.regs]
  case called hc _ => simp [hc.regs]
  case issueFails hx _ hm _ => simp [hm.regs, hx, Fsm.inLoop]
  case callFails hc _ =>
    refine ⟨by simp [hc.regs], .inr (.inl ⟨rfl, ?_⟩)⟩
    cases hc <;> simp [Fsm.inLoop, Fsm.inLifecycle, *]
  all_goals simp_all [Fsm.inLoop, Fsm.inLifecycle, State.visitXlate, State.visitSeg, State.xferRead, State.visitAdv]

/-- What the registers hold while the block runs the command `i`: once checked, a response that `i` may give. -/
structure State.Serves (i : Instr) (s : State) : Prop where
  op        : s.regs.op = i.opcode
  loop      : s.loopOk
  lifecycle : s.fsm.inLifecycle = true → i.opcode = 0 ∨ i.opcode = 1
  kind      : s.fsm ≠ .check → s.regs.stKind ∈ i.kinds
  value     : s.fsm ≠ .check → i.opcode.toNat < 5 ∨ i.opcode.toNat = 9 → s.regs.value = 0

theorem State.Serves.accept (i : Instr) (s : State) : (s.accept (i.load s.regs)).Serves i where
  op := load_op i s.regs
  loop := loopOk_of_outside rfl
  lifecycle := nofun
  kind := fun h => absurd rfl h
  value := fun h => absurd rfl h

/-- A primitive is called by the transfers, OPEN and CLOSE only. -/
theorem State.Serves.opcode_lt_five {i : Instr} {s : State} (h : s.Serves i)
    (hf : s.fsm.inLoop = true ∨ s.fsm.inLifecycle = true) : i.opcode.toNat < 5 := by
  rcases hf with hf | hf
  · rcases h.op ▸ h.loop.op hf with e | e | e <;> simp [e]
  · rcases h.lifecycle hf with e | e <;> simp [e]

/-- A status poll is made by PROGRAM, WRITE and ERASE only. -/
theorem State.Serves.opcode_of_poll {i : Instr} {s : State} (h : s.Serves i) (hf : s.fsm = .poll) :
    i.opcode = 3 ∨ i.opcode = 4 := by
  obtain ⟨hne, -, -⟩ := h.loop.poll hf
  have hop := h.loop.op (by rw [hf]; rfl)
  rw [h.op] at hne hop
  exact hop.resolve_left hne

/-- R180 to R183: SIZE and the three granularity queries alone answer a value. -/
theorem not_query_of_opcode {c : Config} {op : Opcode} {v : Nat} (h : op.toNat < 5 ∨ op.toNat = 9) :
    (op, v) ∉ queryValues c := by
  simp only [queryValues, List.mem_cons, Prod.mk.injEq, List.not_mem_nil, or_false]
  rintro (⟨rfl, -⟩ | ⟨rfl, -⟩ | ⟨rfl, -⟩ | ⟨rfl, -⟩) <;> simp at h

/-- Every way out of a sequencer state keeps to the responses the command may give. -/
theorem State.Exit.serves {i : Instr} {s t : State} (h : s.Exit t) (hc : s.cfg.wf = true) (hs : s.Serves i) :
    t.Serves i where
  op := h.op.trans hs.op
  loop := h.loopOk hc hs.loop
  lifecycle := fun ht => by
    rcases h.inLifecycle ht with hl | hop | hop
    · exact hs.lifecycle hl
    · exact .inl (hs.op ▸ hop)
    · exact .inr (hs.op ▸ hop)
  kind := fun _ => by
    by_cases hf : s.fsm = .check
    · obtain ⟨hok | hrej, -⟩ := h.latch_of_check hf
      · exact hok ▸ ok_mem_kinds i
      · exact hrej.mem_kinds hs.op
    · obtain ⟨-, hsame | ⟨herr, hcall⟩ | ⟨hout, hpoll⟩⟩ := h.latch_after_check hf
      · exact hsame ▸ hs.kind hf
      · exact herr ▸ deviceError_mem_kinds (hs.opcode_lt_five hcall)
      · exact hout ▸ timeout_mem_kinds (hs.opcode_of_poll hpoll)
  value := fun _ hop => by
    by_cases hf : s.fsm = .check
    · obtain ⟨-, hv⟩ := h.latch_of_check hf
      exact hv.resolve_right (hs.op ▸ not_query_of_opcode hop)
    · obtain ⟨hv, -⟩ := h.latch_after_check hf
      exact hv.trans (hs.value hf hop)

/-- The registers that a command of a legal configuration leaves hold a response that it may give. -/
theorem exec_serves {i : Instr} {s t : State} (hc : s.cfg.wf = true) (hr : s.resets = []) (h : exec i s = .next t) :
    t.Serves i := by
  refine (exec_keeps_of_exit (P := fun u => u.cfg.wf = true ∧ u.Serves i) hr h ⟨hc, .accept i s⟩ ?_).2
  rintro u v e ⟨hu, hs⟩
  exact ⟨e.cfg ▸ hu, e.serves hu hs⟩

/-- Settles O41: the run has the steps it needs, and what its registers hold at the end is the response. -/
theorem everyCommandEndsWithItsResponse : Obligations.EveryCommandEndsWithItsResponse := by
  rintro i s hc ⟨hi, hr⟩ hb
  obtain ⟨t, h⟩ : ∃ t, exec i s = .next t := ⟨_, exec_of_idle hb hi⟩
  have hs := exec_serves hc hr h
  have hidle := exec_fsm hc h
  have hchecked : t.fsm ≠ .check := by simp [hidle]
  have hresets : t.resets = [] := exec_keeps (P := fun u => u.resets = []) h hr fun _ _ => tick_resets_of_nil
  refine ⟨t, t.response, h, hidle, exec_hr hc hr h, hs.kind hchecked, hresets, fun hop => ?_, fun hop => ?_⟩
  · simp [State.response, hs.value hchecked hop]
  · exact if_neg fun ⟨h9, _⟩ => hop (hs.op.symm.trans h9)

/-! ### An Ok leaves nothing in flight (R65, R261) -/

/-- An operation is in flight while it is polled, or once an error has ended the command. -/
def State.FlightTracked (s : State) : Prop :=
  s.inFlight = none ∨ s.fsm = .poll ∨ (s.fsm = .resp ∨ s.fsm = .idle) ∧ s.regs.stKind ≠ .ok

/-- `S_XFER` of a PROGRAM or an ERASE starts its poll or ends in an error. -/
theorem visitXfer_flightTracked {s : State} (hop : s.regs.op ≠ 2) : s.visitXfer.FlightTracked := by
  obtain ⟨t, -, ⟨-, e⟩ | ⟨-, e⟩⟩ := visitXfer_mutates hop <;> rw [e]
  · exact .inr (.inl rfl)
  · exact .inr (.inr ⟨.inl rfl, by simp⟩)

/-- A poll has found the device idle, ends in an error, or goes on. -/
theorem visit_flightTracked_of_poll {s : State} (hf : s.fsm = .poll) : s.visit.FlightTracked := by
  cases hb : s.sampleBusy
  · exact .inl (visit_inFlight_of_notBusy hf hb)
  · simp only [State.visit, hf]
    rcases visitPoll_cases s with ⟨-, e⟩ | ⟨-, hnot, -⟩ | ⟨-, -, -, e⟩ | ⟨-, -, -, e⟩
    · exact .inr (.inr ⟨.inl (by simp [e]), by simp [e]⟩)
    · simp [hb] at hnot
    · exact .inr (.inr ⟨.inl (by simp [e]), by simp [e]⟩)
    · exact .inr (.inl (by simpa [e] using hf))

/-- Outside `S_XFER` and `S_POLL` an idle device stays idle. -/
theorem visit_flightTracked {s : State} (hi : s.fsm ≠ .idle) (h : s.FlightTracked) : s.visit.FlightTracked := by
  rcases h with hidle | hpoll | ⟨hresp | hdone, herr⟩
  · by_cases hx : s.fsm = .xfer ∧ s.regs.op ≠ 2
    · obtain ⟨hf, hop⟩ := hx
      simpa [State.visit, hf] using visitXfer_flightTracked hop
    · exact .inl ((visit_exit s).inFlight_of_idle hidle (by tauto))
  · exact visit_flightTracked_of_poll hpoll
  · exact .inr (.inr (by simpa [State.visit, hresp] using herr))
  · exact absurd hdone hi

/-- Settles O43: what is in flight is tracked along the run, and at its end an Ok excludes all but an idle device. -/
theorem okLeavesNothingInFlight : Obligations.OkLeavesNothingInFlight := by
  rintro i s t r address length - - hc ⟨-, hr⟩ hidle h hresp hok
  have htracked : t.FlightTracked := exec_keeps_of_visit hr h (.inl hidle) fun _ => visit_flightTracked
  have hkind : t.regs.stKind = .ok := by
    obtain rfl : t.response = r := Option.some.inj ((exec_hr hc hr h).symm.trans hresp)
    exact hok
  rcases htracked with hnone | hpoll | ⟨-, herr⟩
  · exact hnone
  · simp [exec_fsm hc h] at hpoll
  · exact absurd hkind herr

end Sys2Proof.Machine
end

section
/-! Settling the statements of spec/30_encoding.md: the packed word and the encoder lose nothing of a command (R81 to
R85), the decoder rejects the reserved encodings only (R87), and what a step makes of the descriptor it takes from port
HC (R80, R87, R243). -/

namespace Sys2Proof

/-! ### The packed word (R81) -/

/-- R81: a word `CMD ++ ADDR ++ LEN` holds its descriptor, when the operands are of `AW` bits. -/
theorem unpack_pack {c : Config} {d : Descriptor} (h : d.fits c = true) : Descriptor.unpack c.aw (d.pack c.aw) = d := by
  obtain ⟨ha, hl⟩ : d.addr < 2 ^ c.aw ∧ d.len < 2 ^ c.aw := by simpa [Descriptor.fits] using h
  have hdiv {q r : Nat} (hr : r < 2 ^ c.aw) : (q * 2 ^ c.aw + r) / 2 ^ c.aw = q := by
    rw [Nat.mul_comm, Nat.mul_add_div (Nat.two_pow_pos _), Nat.div_eq_of_lt hr, Nat.add_zero]
  simp [Descriptor.unpack, Descriptor.pack, hdiv ha, hdiv hl, Nat.mod_eq_of_lt, ha, hl]

theorem fits_encode {c : Config} {i : Instr} (h : i.wf c = true) : (encode i).fits c = true := by
  cases i
  case read | program | write | erase => exact h
  all_goals simp [encode, Descriptor.fits]

/-- R82, R83, R84: every command has the encoding facts of its constructor. -/
theorem encoding_statement (i : Instr) : Laws.Encoding.Statement i := by
  cases i
  case openCmd => exact Laws.Encoding.openCmd
  case closeCmd => exact Laws.Encoding.closeCmd
  case read bv a n => exact Laws.Encoding.read bv a n
  case program bv a n => exact Laws.Encoding.program bv a n
  case erase a n => exact Laws.Encoding.erase a n
  case size => exact Laws.Encoding.size
  case getReadSize => exact Laws.Encoding.getReadSize
  case getProgramSize => exact Laws.Encoding.getProgramSize
  case getEraseSize => exact Laws.Encoding.getEraseSize
  case getType => exact Laws.Encoding.getType
  case initCmd => exact Laws.Encoding.initCmd
  case deinitCmd => exact Laws.Encoding.deinitCmd
  case write bv a n => exact Laws.Encoding.write bv a n

theorem decode_encode (i : Instr) : decode (encode i) = .ok i.canonical := (encoding_statement i).2

/-- Settles O1: the word gives back the descriptor, and the descriptor decodes to the command. -/
theorem packedEncodingRoundTrips : Obligations.PackedEncodingRoundTrips := by
  intro c i _ hi
  rw [unpack_pack (fits_encode hi), decode_encode]

/-! ### The fields of `CMD` (R82) -/

/-- R82: the byte is its three fields. -/
theorem cmd_eq_fields (cmd : BitVec 8) : cmdReservedBits cmd ++ BitVec.ofBool (cmdBv cmd) ++ cmdOp cmd = cmd := by
  refine BitVec.eq_of_getLsbD_eq fun k hk => ?_
  simp only [cmdReservedBits, cmdBv, cmdOp, BitVec.getLsbD_append, BitVec.getLsbD_extractLsb', BitVec.getLsbD_ofBool]
  interval_cases k <;> simp

theorem cmdByte_of_fields {cmd : BitVec 8} (h : cmdReservedBits cmd = 0) : cmdByte (cmdOp cmd) (cmdBv cmd) = cmd := by
  have hfields := cmd_eq_fields cmd
  rwa [h] at hfields

/-- The mask `0xEF` clears the buffer reference. -/
theorem cmdByte_and_mask (op : Opcode) (bv : Bool) : cmdByte op bv &&& 0xEF#8 = op.setWidth 8 := by
  cases bv <;> revert op <;> decide

theorem cmdOp_toNat (cmd : BitVec 8) : (cmdOp cmd).toNat = cmd.toNat % 16 := by
  simp [cmdOp, BitVec.extractLsb'_toNat]

theorem cmdReservedBits_toNat (cmd : BitVec 8) : (cmdReservedBits cmd).toNat = cmd.toNat / 32 := by
  have := cmd.isLt
  simp [cmdReservedBits, BitVec.extractLsb'_toNat, Nat.shiftRight_eq_div_pow]
  omega

/-! ### What the decoder yields and what it rejects (R83, R84, R87) -/

/-- R83, R84: the ten commands with the fields of a descriptor as their operands. -/
def Descriptor.commands (d : Descriptor) : List Instr :=
  [.openCmd, .closeCmd, .read (cmdBv d.cmd) d.addr d.len, .program (cmdBv d.cmd) d.addr d.len, .erase d.addr d.len,
    .size, .getReadSize, .getProgramSize, .getEraseSize, .getType]

/-- A descriptor that decodes gives the command of its opcode, and its reserved bits are zero. -/
theorem fields_of_decode {d : Descriptor} {i : Instr} (h : decode d = .ok i) :
    i ∈ d.commands ∧ i.opcode = cmdOp d.cmd ∧ cmdReservedBits d.cmd = 0 := by
  unfold decode at h
  split at h
  · cases h
  · rename_i hbits
    split at h <;> cases h
    all_goals
      rename_i hop
      exact ⟨by simp [Descriptor.commands], BitVec.eq_of_toNat_eq hop.symm, not_not.1 hbits⟩

theorem canonical_of_mem_commands {d : Descriptor} {i : Instr} (h : i ∈ d.commands) : i.canonical = i := by
  revert i
  simp [Descriptor.commands, Instr.canonical]

/-- R83: format T uses every field of the descriptor. -/
theorem encode_of_mem_commands {d : Descriptor} {i : Instr} (h : i ∈ d.commands) (hT : i.opcode = 2 ∨ i.opcode = 3) :
    encode i = ⟨cmdByte i.opcode (cmdBv d.cmd), d.addr, d.len⟩ := by
  revert i
  simp [Descriptor.commands, Instr.opcode, encode]

/-- R83: format E uses both operands of the descriptor. -/
theorem encode_operands_of_mem_commands {d : Descriptor} {i : Instr} (h : i ∈ d.commands) (hE : i.opcode = 4) :
    (encode i).addr = d.addr ∧ (encode i).len = d.len := by
  revert i
  simp [Descriptor.commands, Instr.opcode, encode]

/-- Settles O2: `CMD` is determined by the opcode and the buffer reference, which the mask clears. -/
theorem decodedDescriptorReencodes : Obligations.DecodedDescriptorReencodes := by
  intro d i h
  obtain ⟨hmem, hop, hbits⟩ := fields_of_decode h
  have hcmd : cmdByte i.opcode (cmdBv d.cmd) = d.cmd := by rw [hop, cmdByte_of_fields hbits]
  refine ⟨canonical_of_mem_commands hmem, ?_, fun hT => ?_, encode_operands_of_mem_commands hmem⟩
  · calc (encode i).cmd &&& 0xEF#8
      _ = i.opcode.setWidth 8 := (encoding_statement i).1
      _ = cmdByte i.opcode (cmdBv d.cmd) &&& 0xEF#8 := (cmdByte_and_mask _ _).symm
      _ = d.cmd &&& 0xEF#8 := by rw [hcmd]
  · rw [encode_of_mem_commands hmem hT, hcmd]

/-- R87: the decoder rejects by the reserved bits and by the opcode, and by nothing else. -/
theorem exists_decode_eq_error_iff (d : Descriptor) :
    (∃ e, decode d = .error e) ↔ d.cmd.toNat / 32 ≠ 0 ∨ 10 ≤ d.cmd.toNat % 16 := by
  rw [← cmdReservedBits_toNat, ← cmdOp_toNat]
  unfold decode
  split
  case isTrue hbits => exact ⟨fun _ => .inl fun h => hbits (BitVec.eq_of_toNat_eq h), fun _ => ⟨_, rfl⟩⟩
  case isFalse hbits =>
    have hzero : cmdReservedBits d.cmd = 0 := not_not.1 hbits
    split
    case h_11 => simp_all; omega
    all_goals simp_all

/-- R87: whether a descriptor decodes, by its byte `CMD`. -/
theorem decode_toBool (d : Descriptor) :
    (decode d).toBool = decide (d.cmd.toNat / 32 = 0 ∧ d.cmd.toNat % 16 < 10) := by
  have herror := exists_decode_eq_error_iff d
  cases hd : decode d with
  | ok i => simp_all [Except.toBool]
  | error e => simp_all [Except.toBool]; omega

/-- Settles O3: the count is that of the bytes below 32 whose low half is below 10. -/
theorem reservedEncodingsAreExactly : Obligations.ReservedEncodingsAreExactly := by
  refine ⟨exists_decode_eq_error_iff, ?_⟩
  simp only [decode_toBool, BitVec.toNat_ofNat]
  rw [show 256 = 32 + 224 from rfl, List.range_add, List.countP_append]
  refine (congrArg₂ (· + ·) ?below ?above : _ = 20 + 0)
  case below => decide
  case above =>
    simp only [List.countP_map, List.countP_eq_zero, List.mem_range]
    intro c hc
    simp
    omega

/-- Settles O4: the decoder evaluated on each word. -/
theorem wordsOfTheOpcodeMapDecode : Obligations.WordsOfTheOpcodeMapDecode := by
  unfold Obligations.WordsOfTheOpcodeMapDecode
  decide

end Sys2Proof

namespace Sys2Proof.Machine

/-! ### Aliases (R93) -/

theorem load_canonical (i : Instr) (r : Regs) : i.canonical.load r = i.load r := by
  cases i <;> rfl

theorem bufferFits_canonical (i : Instr) (s : State) : s.bufferFits i.canonical = s.bufferFits i := by
  cases i <;> rfl

/-- Settles O19: an alias loads the registers of its command and needs the same buffer. -/
theorem aliasesMeanTheirCommands : Obligations.AliasesMeanTheirCommands := by
  intro i s
  rw [exec_eq_command, exec_eq_command, load_canonical, bufferFits_canonical]

/-! ### The step that takes a descriptor (R80) -/

/-- R80: with no reset due, the idle block takes the descriptor that port HC offers, and runs it. -/
theorem step_eq_runDescriptor {s : State} {q : Request} {rest : List Request} (hwf : s.cfg.wf = true)
    (hi : s.fsm = .idle) (hdue : s.resets.head? ≠ some 0) (hhc : s.hc = q :: rest) (hfit : q.desc.fits s.cfg = true) :
    step s = runDescriptor q.desc (s.issue q rest) := by
  simp [step, State.stepOnce, State.takeRequest, hwf, hi, hdue, hhc, hfit]

/-- Settles O50: the descriptor taken decodes to the command that runs. -/
theorem stepRunsTheDecodedCommand : Obligations.StepRunsTheDecodedCommand := by
  intro s q rest i hwf hi hdue hhc hfit hdec
  rw [step_eq_runDescriptor hwf hi hdue hhc hfit, runDescriptor, hdec]
  rfl

/-! ### Reserved encodings (R87) -/

/-- R23: from `S_RESP` one sequencer step ends the run, by the delivery of the response or by a reset. -/
theorem run_of_resp {s : State} (hf : s.fsm = .resp) (n : Nat) : s.run (n + 1) = s.tick := by
  have hidle : s.tick.fsm = .idle := by
    obtain ⟨r, e⟩ | ⟨-, e⟩ := tick_visit_or_reset s <;> simp [e, State.visit, hf]
  rw [run_succ (by simp [hf]), run_of_idle hidle]

/-- R216: the response to a reserved encoding carries no value and no string. -/
theorem rejectEncoding_response (s : State) : s.rejectEncoding.response = Response.status .invalidArgument 0 := by
  simp [State.response, Response.status]

/-- A reserved encoding that no reset prevents is rejected in `S_CHECK`; one more sequencer step ends it. -/
theorem run_tickBy_rejectEncoding_of_noReset {a : State} (hr : a.resets = []) (n : Nat) :
    (a.tickBy State.rejectEncoding).run (n + 1) = a.rejectEncoding.respond := by
  have hf : a.rejectEncoding.fsm = .resp := rfl
  rw [tickBy_of_noReset hr, run_of_resp hf, tick_of_noReset (s := a.rejectEncoding) hr, State.visit, hf]

/-- R243: a reset due at the visit of `S_CHECK`. -/
theorem run_tickBy_rejectEncoding_of_due {a : State} {later : List Nat} (hr : a.resets = 0 :: later) (n : Nat) :
    (a.tickBy State.rejectEncoding).run n = a.takeReset := by
  rw [tickBy_of_due hr, run_of_idle rfl]

/-- R243: a reset due at the visit of `S_RESP`. -/
theorem run_tickBy_rejectEncoding_of_next {a : State} {later : List Nat} (hr : a.resets = 1 :: later) (n : Nat) :
    (a.tickBy State.rejectEncoding).run (n + 1) = { a with resets := 0 :: later }.rejectEncoding.takeReset := by
  rw [tickBy_of_later hr, run_of_resp rfl, tick_of_due rfl]

/-- R243: a reset due after the visit of `S_RESP`. -/
theorem run_tickBy_rejectEncoding_of_later {a : State} {k : Nat} {later : List Nat} (hr : a.resets = (k + 2) :: later)
    (n : Nat) :
    (a.tickBy State.rejectEncoding).run (n + 1) = { a with resets := k :: later }.rejectEncoding.respond := by
  rw [tickBy_of_later hr, run_of_resp rfl, tick_of_later rfl]
  rfl

section
variable {s : State} (hi : s.fsm = .idle) (op : Opcode)
include hi

theorem commandReserved_of_idle : ∃ r n,
    s.commandReserved op = .next (((s.accept r).tickBy State.rejectEncoding).run (n + 1)) :=
  ⟨_, _, if_pos hi⟩

/-- R87: without a reset a reserved encoding is answered. -/
theorem commandReserved_of_noReset (hr : s.resets = []) :
    ∃ r, s.commandReserved op = .next { s with
      regs := r, hr := some (Response.status .invalidArgument 0), trace := [] } := by
  obtain ⟨r, n, h⟩ := commandReserved_of_idle hi op
  rw [h, run_tickBy_rejectEncoding_of_noReset (a := s.accept r) hr, State.respond, rejectEncoding_response, ← hi]
  exact ⟨_, rfl⟩

/-- R243: a reset due before the answer leaves a reserved encoding unanswered. -/
theorem commandReserved_of_soon {k : Nat} {later : List Nat} (hr : s.resets = k :: later) (hk : k < 2) :
    ∃ r, s.commandReserved op = .next { s with
      opened := false, regs := r, hr := none, trace := [], resets := later } := by
  obtain ⟨r, n, h⟩ := commandReserved_of_idle hi op
  match k with
  | 0 =>
    rw [h, run_tickBy_rejectEncoding_of_due (a := s.accept r) hr, State.takeReset, accept_resets, hr, ← hi]
    exact ⟨_, rfl⟩
  | 1 =>
    rw [h, run_tickBy_rejectEncoding_of_next (a := s.accept r) hr, State.takeReset, ← hi]
    exact ⟨_, rfl⟩

/-- R243: a reset due after the answer is still to come. -/
theorem commandReserved_of_later {k : Nat} {later : List Nat} (hr : s.resets = (k + 2) :: later) :
    ∃ r, s.commandReserved op = .next { s with
      regs := r, hr := some (Response.status .invalidArgument 0), trace := [], resets := k :: later } := by
  obtain ⟨r, n, h⟩ := commandReserved_of_idle hi op
  rw [h, run_tickBy_rejectEncoding_of_later (a := s.accept r) hr, State.respond, rejectEncoding_response, ← hi]
  exact ⟨_, rfl⟩

end

/-- Settles O53: taking the descriptor is the first sequencer step of the reset's schedule. -/
theorem stepAnswersReservedEncodings : Obligations.StepAnswersReservedEncodings := by
  intro s q rest e hwf hi hhc hfit hdec
  have hstep (hdue : s.resets.head? ≠ some 0) : step s = (s.issue q rest).commandReserved (cmdOp q.desc.cmd) := by
    rw [step_eq_runDescriptor hwf hi hdue hhc hfit, runDescriptor, hdec]
  have hissue : (s.issue q rest).fsm = .idle := hi
  constructor
  · intro hr
    obtain ⟨r, h⟩ := commandReserved_of_noReset hissue (cmdOp q.desc.cmd) (by simp [hr])
    exact ⟨r, by rw [hstep (by simp [hr]), h]; simp [hr]⟩
  intro k later hr
  have hresets : (s.issue q rest).resets = k :: later := by simp [hr]
  constructor
  · intro hk
    obtain ⟨r, h⟩ := commandReserved_of_soon hissue (cmdOp q.desc.cmd) hresets hk
    exact ⟨r, by rw [hstep (by simp [hr]), h]; rfl⟩
  · intro hk
    obtain ⟨j, rfl⟩ := Nat.exists_eq_add_of_le' hk
    obtain ⟨r, h⟩ := commandReserved_of_later hissue (cmdOp q.desc.cmd) hresets
    exact ⟨r, by rw [hstep (by simp [hr]), h]; rfl⟩

end Sys2Proof.Machine
end

section
/-! Settling the statements of spec/40_validate_translate.md, layer 1: the arithmetic of validation and translation (R111
to R124), and a command that fails validation (R112). -/

namespace Sys2Proof.Machine

/-! ### Validation and translation (R111 to R124) -/

/-- Settles O5: with natural operands the subtraction only turns the strict comparison into a weak one. -/
theorem rangeCheckIsOverTheIntegers : Obligations.RangeCheckIsOverTheIntegers := by
  intro c address length
  have hiff : address + length > c.totalSize ↔ (address : Int) + (length : Int) - 1 ≥ (c.totalSize : Int) := by omega
  simp only [validateRange, hiff]

/-- The granule that holds `x` ends on the next multiple of the granule (R121). -/
theorem add_granule_rest {g : Nat} (hg : 0 < g) (x : Nat) : x + (g - x % g) = g * (x / g + 1) := by
  have hdm := Nat.div_add_mod x g
  have hlt := Nat.mod_lt x hg
  rw [Nat.mul_add]
  omega

theorem add_granule_rest_mod {g : Nat} (hg : 0 < g) (x : Nat) : (x + (g - x % g)) % g = 0 := by
  rw [add_granule_rest hg, Nat.mul_mod_right]

/-- `x` is the last address of its granule exactly when the next one starts a granule. -/
theorem add_one_mod_eq_zero_iff {g : Nat} (hg : 0 < g) (x : Nat) : (x + 1) % g = 0 ↔ x % g + 1 = g := by
  obtain ⟨k, rfl⟩ := Nat.exists_eq_add_of_lt hg
  rw [Nat.zero_add, Nat.succ_mod_succ_eq_zero_iff]
  omega

/-- Settles O6: a remainder is between 0 and the granule less one, and the granule less one is the last address. -/
theorem remainingQuantitiesStayInRange : Obligations.RemainingQuantitiesStayInRange := by
  intro c la hc
  obtain ⟨hw, -, -, hp, -⟩ := wf_facts hc
  have hwin := Nat.mod_lt la hw
  have hpage := Nat.mod_lt la hp
  rw [add_one_mod_eq_zero_iff hw]
  unfold remainWindow remainPage
  omega

/-- Settles O7, from the division of `la` by the granule. -/
theorem alignDownGivesTheBlockOfAnAddress : Obligations.AlignDownGivesTheBlockOfAnAddress := by
  intro c la hc
  obtain ⟨-, -, -, -, he, -⟩ := wf_facts hc
  have hdm := Nat.div_add_mod' la c.eraseGran
  have hlt := Nat.mod_lt la he
  refine ⟨rfl, ?_, Nat.dvd_mul_left _ _, alignDownBlock_le c la, ?_⟩ <;> unfold alignDownBlock <;> omega

/-- R124: two addresses share a physical address when they have the same offset in their banks. -/
theorem translatePa_eq_iff (c : Config) (la lb : Nat) :
    translatePa c la = translatePa c lb ↔ (c.window : Int) ∣ (la : Int) - (lb : Int) := by
  rw [translatePa, translatePa, Nat.add_left_cancel_iff, eq_comm]
  exact Nat.modEq_iff_dvd

/-- Settles O8, from the division of `la` by the window. -/
theorem translationIsInvertible : Obligations.TranslationIsInvertible := by
  intro c la lb hc hla _
  obtain ⟨hw, -⟩ := wf_facts hc
  have hmod := Nat.mod_lt la hw
  refine ⟨translateBank_lt_nBanks hw hla, Nat.le_add_right _ _, Nat.add_lt_add_left hmod _, ?_,
    translatePa_eq_iff c la lb⟩
  rw [translatePa, translateBank, Nat.add_sub_cancel_left, Nat.div_add_mod']

/-- R120: where blocks divide the window, the bank of an address is that of its block. -/
theorem translateBank_eq_of_block {c : Config} (hd : c.eraseGran ∣ c.window) {la lb : Nat}
    (h : la / c.eraseGran = lb / c.eraseGran) : translateBank c la = translateBank c lb := by
  obtain ⟨k, hk⟩ := hd
  rw [translateBank, translateBank, hk, ← Nat.div_div_eq_div_mul, ← Nat.div_div_eq_div_mul, h]

/-- Settles O9: both granules divide the window, and the ends of an aligned block lie in the same block. -/
theorem granulesNeverSpanTwoBanks : Obligations.GranulesNeverSpanTwoBanks := by
  intro c la hc
  obtain ⟨hw, -, -, -, he, -, hpd, hed, -⟩ := wf_facts hc
  have hpage : remainPage c la ≤ remainWindow c la := remain_le_remainWindow hw hpd la
  refine ⟨hpage, remain_le_remainWindow hw hed la, min_eq_right hpage, translateBank_eq_of_block hed ?_⟩
  have hlast : (la / c.eraseGran * c.eraseGran + (c.eraseGran - 1)) / c.eraseGran = la / c.eraseGran := by
    rw [Nat.mul_comm, Nat.mul_add_div he, Nat.div_eq_of_lt (Nat.sub_one_lt_of_lt he), Nat.add_zero]
  rw [Nat.add_sub_assoc he, alignDownBlock, hlast, Nat.mul_div_cancel _ he]

/-- Settles O10: the address after a cut is the next multiple of the granule that cut it. -/
theorem cutSegmentsEndOnTheBoundary : Obligations.CutSegmentsEndOnTheBoundary := by
  intro c la hc
  obtain ⟨hw, -, -, hp, he, -⟩ := wf_facts hc
  have hwin : (la + remainWindow c la) % c.window = 0 := add_granule_rest_mod hw la
  refine ⟨hwin, add_granule_rest_mod hp la, add_granule_rest_mod he la, ?_, ?_⟩
  · rw [translateBank, remainWindow, add_granule_rest hw, Nat.mul_div_cancel_left _ hw, translateBank]
  · rw [translatePa, hwin, Nat.add_zero]

/-! ### A command that fails validation (R112) -/

/-- A command that `S_CHECK` rejects is answered in the next sequencer step, and has changed nothing else. -/
theorem exec_of_rejected {i : Instr} {s : State} {k : Kind} (hq : s.quiet) (hb : s.bufferFits i = true)
    (hk : k ≠ .ok)
    (hrej : (s.accept (i.load s.regs)).visitCheck = (s.accept (i.load s.regs).clearLatch).raise k 0) :
    ∃ r, exec i s = .next { s with regs := r, hr := some (Response.status k 0), trace := [] } := by
  obtain ⟨hi, hr⟩ := hq
  have htick : (s.accept (i.load s.regs)).tick = (s.accept (i.load s.regs).clearLatch).raise k 0 := by
    rw [tick_of_noReset (s := s.accept (i.load s.regs)) hr, State.visit, accept_fsm, hrej]
  have hresponse : ((s.accept (i.load s.regs).clearLatch).raise k 0).response = Response.status k 0 := by
    simp [State.response, Response.status, hk]
  obtain ⟨n, hn⟩ : ∃ n, commandBound i s = n + 1 + 1 := ⟨commandBound i s - 2, by simp [commandBound, tickBound]⟩
  rw [exec_of_idle hb hi, hn, run_succ (by simp), htick, run_of_resp rfl,
    tick_of_noReset (s := (s.accept (i.load s.regs).clearLatch).raise k 0) hr, State.visit, raise_fsm, State.respond,
    hresponse, ← hi]
  exact ⟨_, rfl⟩

/-- A READ, PROGRAM or WRITE goes through both checks. -/
theorem visitCheck_of_opcode {s : State} (h : s.regs.op = 2 ∨ s.regs.op = 3) :
    s.visitCheck = { s with regs := s.regs.clearLatch }.checkBuffer := by
  rcases h with h | h <;> simp [State.visitCheck, h]

/-- Settles O22: the two ways out of the checks that raise an error. -/
theorem failedValidationChangesNothing : Obligations.FailedValidationChangesNothing := by
  intro s bv address length i hcmd hq
  have hop : i.opcode = 2 ∨ i.opcode = 3 := by rcases hcmd with rfl | rfl | rfl <;> simp [Instr.opcode]
  have hregs : (i.load s.regs).clearLatch.bufValid = bv ∧ (i.load s.regs).clearLatch.addr = address ∧
      (i.load s.regs).clearLatch.len = length := by
    rcases hcmd with rfl | rfl | rfl <;> exact ⟨rfl, rfl, rfl⟩
  have hfits : s.bufferFits i = !s.bufferTooShort bv address length := by rcases hcmd with rfl | rfl | rfl <;> rfl
  have hcheck := visitCheck_of_opcode (s := s.accept (i.load s.regs)) (by simpa using hop)
  have hways := checkBuffer_cases (s.accept (i.load s.regs).clearLatch)
  simp only [accept_regs, accept_cfg, hregs] at hways
  refine ⟨fun hno => exec_of_rejected hq ?_ nofun (hcheck.trans ?_),
    fun hyes hout => exec_of_rejected hq ?_ nofun (hcheck.trans ?_)⟩
  · simp [hfits, hno, State.bufferTooShort]
  · rcases hways with ⟨-, e⟩ | ⟨hb, -⟩ | ⟨hb, -⟩
    · exact e
    · simp [hno] at hb
    · simp [hno] at hb
  · simp only [hfits, Bool.not_eq_true', ← Bool.not_eq_true, bufferTooShort_iff]
    omega
  · rcases hways with ⟨hb, -⟩ | ⟨-, -, e⟩ | ⟨-, hr, -⟩
    · simp [hyes] at hb
    · exact e
    · omega

end Sys2Proof.Machine
end

section
/-! Settling the statements of spec/40_validate_translate.md, layer 2: the primitive call of every visit, and that its
arguments are legal (R195 to R199). -/

namespace Sys2Proof.Machine

/-! ### The calls of a visit -/

/-- R190: the trace entry of the primitive call that a visit makes, by the sequencer state. -/
inductive State.Logs (s : State) : Prim → Prop
  | bankSelect      : s.fsm = .bank → Logs s (.bankSelect s.regs.bank s.nextStatus)
  | memRead         : s.fsm = .xfer → s.regs.op = 2 →
      Logs s (.memRead s.regs.pa s.regs.segLen (s.windowBytes s.regs.pa s.regs.segLen))
  | program         : s.fsm = .xfer → s.regs.op = 3 →
      Logs s (.program (bufRead s.hb s.regs.bufOff s.regs.segLen) s.regs.pa s.regs.segLen s.nextStatus)
  | eraseBlock      : s.fsm = .xfer → s.regs.op ≠ 2 → s.regs.op ≠ 3 →
      Logs s (.eraseBlock s.regs.pa s.regs.segLen s.nextStatus)
  | statusGet       : s.fsm = .poll → Logs s (.statusGet s.nextStatus s.sampleBusy)
  | peripheralOpen  : s.fsm = .hsOpen → Logs s (.peripheralOpen s.cfg.periphConfig s.nextStatus)
  | directWrite (bytes : List Byte) (keep : Bool) :
      s.fsm = .hsWren ∨ s.fsm = .hsWrsr ∨ s.fsm = .hsRdbk → Logs s (.directWrite bytes bytes.length keep s.nextStatus)
  | directRead (n : Nat) : s.fsm = .hsRead → Logs s (.directRead n s.nextStatus (s.directReadBytes n))
  | peripheralClose : s.fsm = .close → Logs s (.peripheralClose s.nextStatus)

/-- A visit leaves the trace alone, or makes the call of its state. -/
def State.LogsAtMost (s : State) (tr : List Prim) : Prop := tr = s.trace ∨ ∃ p, s.Logs p ∧ tr = s.trace ++ [p]

theorem State.Logs.atMost {s : State} {p : Prim} (h : s.Logs p) : s.LogsAtMost (s.trace ++ [p]) := .inr ⟨p, h, rfl⟩

theorem State.Calls.logs {s t : State} {f : Fsm} (h : s.Calls t f) : s.LogsAtMost t.trace := by
  cases h
  case bank hf => simpa using (State.Logs.bankSelect hf).atMost
  case hsOpen hf => simpa using (State.Logs.peripheralOpen hf).atMost
  case hsWren hf => simpa using (State.Logs.directWrite [s.cfg.cmdWren] false (.inl hf)).atMost
  case hsWrsr hf =>
    simpa using (State.Logs.directWrite (s.cfg.cmdWrsr :: s.cfg.srExpected) false (.inr (.inl hf))).atMost
  case hsRdbk hf => simpa using (State.Logs.directWrite [s.cfg.cmdRdsr] true (.inr (.inr hf))).atMost
  case close hf =>
    rw [peripheralClose_trace]
    exact (State.Logs.peripheralClose hf).atMost

theorem State.Mutates.logs {s t : State} (h : s.Mutates t) (hf : s.fsm = .xfer) (h2 : s.regs.op ≠ 2) :
    s.LogsAtMost t.trace := by
  cases h
  case program h3 => simpa using (State.Logs.program hf h3).atMost
  case erase h3 => simpa using (State.Logs.eraseBlock hf h2 h3).atMost

/-- R16: a visit makes at most one call, that of its sequencer state. -/
theorem State.Exit.logs {s t : State} (h : s.Exit t) : s.LogsAtMost t.trace := by
  cases h
  case issues hf h2 hm _ => exact hm.logs hf h2
  case issueFails hf h2 hm _ => exact hm.logs hf h2
  case called hc _ => exact hc.logs
  case callFails hc _ => exact hc.logs
  case copies hf h2 => simpa [State.xferRead] using (State.Logs.memRead hf h2).atMost
  case pollFails hf _ => simpa using (State.Logs.statusGet hf).atMost
  case completes hf _ _ => simpa using (State.Logs.statusGet hf).atMost
  case timesOut hf _ _ _ => simpa using (State.Logs.statusGet hf).atMost
  case pollsAgain hf _ _ _ => simpa using (State.Logs.statusGet hf).atMost
  case readBackFails hf _ => simpa using (State.Logs.directRead _ hf).atMost
  case mismatches hf _ _ => simpa using (State.Logs.directRead _ hf).atMost
  case opens hf _ _ => simpa using (State.Logs.directRead _ hf).atMost
  all_goals exact .inl rfl

/-! ### The arguments of a segment (R119, R163) -/

section
variable {c : Config} {r : Regs}

/-- R27: a segment has at least one byte. -/
theorem segmentLength_pos (hc : c.wf = true) (op : Opcode) (cursor : Nat) {remaining : Int} (hleft : 0 < remaining) :
    1 ≤ segmentLength c op cursor remaining := by
  obtain ⟨-, -, -, -, he, -⟩ := wf_facts hc
  have hwin := remainWindow_pos hc cursor
  have hpage := remainPage_pos hc cursor
  unfold segmentLength
  repeat' split
  all_goals omega

/-- R150: a PROGRAM segment ends no later than its page. -/
theorem segmentLength_le_remainPage (cursor : Nat) (remaining : Int) :
    segmentLength c 3 cursor remaining ≤ remainPage c cursor := min_le_right _ _

/-- R119, R120: every segment ends no later than its bank. -/
theorem segmentLength_le_remainWindow (hc : c.wf = true) (ht : r.Transferring c) :
    segmentLength c r.op r.cursor r.remaining ≤ remainWindow c (segmentStart c r.op r.cursor) := by
  obtain ⟨hw, -, -, -, -, -, hpd, hed, -⟩ := wf_facts hc
  rcases ht.op with hop | hop | hop
  · rw [hop]
    exact min_le_right _ _
  · rw [hop]
    exact (segmentLength_le_remainPage _ _).trans (remain_le_remainWindow hw hpd _)
  · have hblock := remain_le_remainWindow hw hed (segmentStart c r.op r.cursor)
    rw [segmentStart_aligned ht hop, Nat.sub_zero, hop] at hblock
    rw [hop, segmentLength_erase]
    exact hblock

/-- R114, R121: the segment's physical range lies in the window. -/
theorem segment_in_window (hc : c.wf = true) (ht : r.Transferring c) (hloc : r.Located c) (hm : r.Measured c) :
    c.baseAddress ≤ r.pa ∧ r.pa + r.segLen ≤ c.baseAddress + c.window := by
  obtain ⟨hw, -⟩ := wf_facts hc
  obtain ⟨-, hpa⟩ := hloc
  have hlen := segmentLength_le_remainWindow hc ht
  have hmod := Nat.mod_lt (segmentStart c r.op r.cursor) hw
  rw [hpa, hm, translatePa]
  unfold remainWindow at hlen
  omega

/-- R120: a granule that divides the window lies in it as it lies in the device. -/
theorem segment_offset_mod (hloc : r.Located c) {g : Nat} (hg : g ∣ c.window) :
    (r.pa - c.baseAddress) % g = segmentStart c r.op r.cursor % g := by
  rw [hloc.2, translatePa, Nat.add_sub_cancel_left, Nat.mod_mod_of_dvd _ hg]

/-- R150: a PROGRAM segment crosses no page. -/
theorem segment_in_page (hc : c.wf = true) (hop : r.op = 3) (hloc : r.Located c) (hm : r.Measured c) :
    (r.pa - c.baseAddress) % c.progGran + r.segLen ≤ c.progGran := by
  obtain ⟨-, -, -, hp, -, -, hpd, -⟩ := wf_facts hc
  have hmod := Nat.mod_lt r.cursor hp
  have hlen := segmentLength_le_remainPage (c := c) r.cursor r.remaining
  have hstart : segmentStart c 3 r.cursor = r.cursor := rfl
  rw [segment_offset_mod hloc hpd, hm, hop, hstart]
  unfold remainPage at hlen
  omega

/-- R114: the bank of a segment exists. -/
theorem segment_bank_lt (hc : c.wf = true) (ht : r.Transferring c) (hloc : r.Located c) : r.bank < nBanks c := by
  obtain ⟨hw, -⟩ := wf_facts hc
  rw [hloc.1]
  exact translateBank_lt_nBanks hw ((segmentStart_le c r.op r.cursor).trans_lt ht.cursor_lt)

end

/-! ### The buffer of a PROGRAM (R51) -/

/-- R51: a PROGRAM that passes validation has a buffer of its length. -/
structure State.BufferOk (s : State) : Prop where
  offered : s.fsm = .check → s.regs.op = 3 → s.bufferTooShort s.regs.bufValid s.regs.addr s.regs.len = false
  used    : s.fsm.inLoop = true → s.regs.op = 3 → s.regs.len ≤ s.hb.length

/-- R110, R111: a PROGRAM that enters the loop has passed both checks. -/
theorem visit_validates {s : State} (hf : s.fsm = .check) (hop : s.regs.op = 3) (h : s.visit.fsm.inLoop = true) :
    s.regs.bufValid = true ∧ s.regs.addr + s.regs.len ≤ s.cfg.totalSize := by
  rw [State.visit, hf] at h
  simp only [visitCheck_of_opcode (.inr hop)] at h
  rcases checkBuffer_cases { s with regs := s.regs.clearLatch } with ⟨-, e⟩ | ⟨-, -, e⟩ | ⟨hb, hr, -⟩
  · simp [e, Fsm.inLoop] at h
  · simp [e, Fsm.inLoop] at h
  · exact ⟨hb, hr⟩

/-- Only READ writes the host buffer. -/
theorem State.Exit.hb {s t : State} (h : s.Exit t) (hop : s.regs.op ≠ 2) : t.hb = s.hb := by
  cases h
  case copies h2 => exact absurd h2 hop
  case issues hm _ => cases hm <;> simp
  case issueFails hm _ => cases hm <;> simp
  case called hc _ => cases hc <;> simp
  case callFails hc _ => cases hc <;> simp
  all_goals simp [State.visitXlate, State.visitSeg, State.visitAdv]

/-- No visit leads back to `S_CHECK`. -/
theorem visit_fsm_ne_check (s : State) : s.visit.fsm ≠ .check := by
  by_cases hi : s.fsm = .idle
  · simp [State.visit, hi]
  · intro ht
    have hnext := (visit_exit s).successors hi
    cases hf : s.fsm <;> simp [ht, hf, Fsm.successors] at hi hnext

/-- R23: the segment loop is entered from `S_CHECK` only. -/
theorem check_of_visit_inLoop {s : State} (hl : s.fsm.inLoop = false) (ht : s.visit.fsm.inLoop = true) :
    s.fsm = .check := by
  by_cases hi : s.fsm = .idle
  · simp [State.visit, hi, Fsm.inLoop] at ht
  · have hnext := (visit_exit s).successors hi
    generalize s.visit.fsm = f at hnext ht
    cases hf : s.fsm <;> cases f <;> simp [hf, Fsm.successors, Fsm.inLoop] at hl ht hnext ⊢

theorem State.Exit.len {s t : State} (h : s.Exit t) : t.regs.len = s.regs.len := congrArg (fun o => o.2.2.2) h.operands

theorem visit_bufferOk {s : State} (h : s.BufferOk) : s.visit.BufferOk where
  offered := fun hf => absurd hf (visit_fsm_ne_check s)
  used := fun hin hop => by
    have e := visit_exit s
    rw [e.op] at hop
    rw [e.len, e.hb (by simp [hop])]
    by_cases hl : s.fsm.inLoop = true
    · exact h.used hl hop
    · have hf := check_of_visit_inLoop (by simpa using hl) hin
      obtain ⟨hbv, hrange⟩ := visit_validates hf hop hin
      have hfits := h.offered hf hop
      rw [← Bool.not_eq_true, bufferTooShort_iff] at hfits
      exact Nat.not_lt.1 fun hshort => hfits ⟨hbv, hrange, hshort⟩

theorem accept_bufferOk {i : Instr} {s : State} (hb : s.bufferFits i = true) : (s.accept (i.load s.regs)).BufferOk where
  offered := fun _ hop => by
    cases i
    case program => exact (Bool.not_eq_true' _).mp hb
    case write => exact (Bool.not_eq_true' _).mp hb
    all_goals cases hop
  used := nofun

/-- R51, R150: the buffer holds every byte of a PROGRAM's segment. -/
theorem length_source {s : State} (hl : s.loopOk) (hb : s.BufferOk) (hf : s.fsm = .xfer) (hop : s.regs.op = 3) :
    (bufRead s.hb s.regs.bufOff s.regs.segLen).length = s.regs.segLen := by
  have ht := transferring_of_inLoop hl (by rw [hf]; rfl)
  have hleft := ht.left
  have hbuf := ht.buffer (by simp [hop])
  have hlen := hb.used (by rw [hf]; rfl) hop
  have hseg := segmentLength_le_remaining (c := s.cfg) (op := s.regs.op) (.inr hop) s.regs.cursor s.regs.remaining
  rw [← hl.length (by rw [hf]; rfl)] at hseg
  rw [bufRead, List.length_take, List.length_drop]
  omega

/-! ### The legality of every call -/

/-- R195 to R199: where the segment loop and the buffer are in order, the call of a sequencer state is legal. -/
theorem State.Logs.legal {s : State} {p : Prim} (h : s.Logs p) (hc : s.cfg.wf = true) (hl : s.loopOk)
    (hb : s.BufferOk) : p.legal s.cfg := by
  have ⟨ht, hloc, hm, _⟩ := (loopOk_iff s).1 hl
  obtain ⟨-, -, -, -, -, -, -, hed, -⟩ := wf_facts hc
  cases h
  case bankSelect hf =>
    rw [hf] at ht hloc
    exact segment_bank_lt hc (ht rfl) (hloc rfl)
  case memRead hf _ =>
    rw [hf] at ht hloc hm
    exact ⟨hm rfl ▸ segmentLength_pos hc _ _ (ht rfl).left, by simp [State.windowBytes],
      segment_in_window hc (ht rfl) (hloc rfl) (hm rfl)⟩
  case program hf hop =>
    have hsource := length_source hl hb hf hop
    rw [hf] at ht hloc hm
    obtain ⟨hlow, hhigh⟩ := segment_in_window hc (ht rfl) (hloc rfl) (hm rfl)
    exact ⟨hm rfl ▸ segmentLength_pos hc _ _ (ht rfl).left, hsource, hlow, hhigh,
      segment_in_page hc hop (hloc rfl) (hm rfl)⟩
  case eraseBlock hf h2 h3 =>
    rw [hf] at ht hloc hm
    have hop : s.regs.op = 4 := ((ht rfl).op.resolve_left h2).resolve_left h3
    obtain ⟨hlow, hhigh⟩ := segment_in_window hc (ht rfl) (hloc rfl) (hm rfl)
    refine ⟨?_, hlow, hhigh, ?_⟩
    · rw [hm rfl, hop, segmentLength_erase]
    · rw [segment_offset_mod (hloc rfl) hed, segmentStart_aligned (ht rfl) hop]
  case directRead => exact length_bytes _ _
  all_goals simp [Prim.legal]

/-- What makes a command's calls legal, and that those made so far are. -/
structure State.CallsLegally (s : State) : Prop where
  config : s.cfg.wf = true
  loop   : s.loopOk
  buffer : s.BufferOk
  trace  : ∀ e ∈ s.trace, e.legal s.cfg

theorem visit_callsLegally {s : State} (h : s.CallsLegally) : s.visit.CallsLegally where
  config := by rw [visit_cfg]; exact h.config
  loop := (visit_exit s).loopOk h.config h.loop
  buffer := visit_bufferOk h.buffer
  trace := by
    rw [visit_cfg]
    rcases (visit_exit s).logs with e | ⟨p, hp, e⟩ <;> rw [e]
    · exact h.trace
    · simpa [or_imp, forall_and] using And.intro h.trace (hp.legal h.config h.loop h.buffer)

theorem takeReset_callsLegally {s : State} (h : s.CallsLegally) : s.takeReset.CallsLegally :=
  ⟨h.config, loopOk_of_outside rfl, ⟨nofun, nofun⟩, h.trace⟩

/-- The reset input is no part of it. -/
theorem withResets_callsLegally {s : State} (h : s.CallsLegally) (r : List Nat) :
    { s with resets := r }.CallsLegally := by
  obtain ⟨hc, hl, ⟨ho, hu⟩, ht⟩ := h
  exact ⟨hc, { hl with }, ⟨ho, hu⟩, ht⟩

theorem tick_callsLegally {s : State} (h : s.CallsLegally) : s.tick.CallsLegally :=
  tick_keeps (P := State.CallsLegally) (fun _ r h => withResets_callsLegally h r) (fun _ => visit_callsLegally)
    (fun _ => takeReset_callsLegally) h

theorem exec_cfg {i : Instr} {s t : State} (h : exec i s = .next t) : t.cfg = s.cfg := by
  obtain ⟨-, -, rfl⟩ := exec_next h
  simp

/-- Settles O44: an accepted command calls legally, and visits and resets keep it so. -/
theorem primitiveArgumentsAreLegal : Obligations.PrimitiveArgumentsAreLegal := by
  intro i s t hc h
  obtain ⟨hb, -, -⟩ := exec_next h
  have hacc : (s.accept (i.load s.regs)).CallsLegally := ⟨hc, loopOk_of_outside rfl, accept_bufferOk hb, nofun⟩
  have hend : t.CallsLegally := exec_keeps h hacc fun _ _ => tick_callsLegally
  exact exec_cfg h ▸ hend.trace

end Sys2Proof.Machine
end

section
/-! Settling the statements of spec/40_validate_translate.md, layer 3: noninterference of `READ_GRAN` (R125, R142). The
peripheral does not see it, and of the visits only GET_READ_SIZE's reads it; so two runs that differ in it go through
the same states but for it. -/

namespace Sys2Proof.Machine

/-! ### A configuration with another `READ_GRAN` -/

def State.withReadGran (g : Nat) (s : State) : State := { s with cfg := { s.cfg with readGran := g } }

section
variable (g : Nat) (s : State)

@[simp] theorem withReadGran_fsm : (s.withReadGran g).fsm = s.fsm := rfl
@[simp] theorem withReadGran_cfg : (s.withReadGran g).cfg = { s.cfg with readGran := g } := rfl
@[simp] theorem withReadGran_hb : (s.withReadGran g).hb = s.hb := rfl
@[simp] theorem withReadGran_regs : (s.withReadGran g).regs = s.regs := rfl
@[simp] theorem withReadGran_drawn : (s.withReadGran g).drawn = s.drawn := rfl
@[simp] theorem withReadGran_nextStatus : (s.withReadGran g).nextStatus = s.nextStatus := rfl
@[simp] theorem withReadGran_ready : (s.withReadGran g).ready = s.ready := rfl
@[simp] theorem withReadGran_busy : (s.withReadGran g).busy = s.busy := rfl
@[simp] theorem withReadGran_inFlight : (s.withReadGran g).inFlight = s.inFlight := rfl
@[simp] theorem withReadGran_directReadBytes (n : Nat) :
    (s.withReadGran g).directReadBytes n = s.directReadBytes n := rfl
@[simp] theorem withReadGran_draw : (s.withReadGran g).draw = s.draw.withReadGran g := rfl

@[simp] theorem withReadGran_settle (d : Drawn) : (s.withReadGran g).settle d = (s.settle d).withReadGran g := by
  unfold State.settle
  rw [withReadGran_inFlight]
  cases s.inFlight with
  | none => rfl
  | some f => cases d.ans.settled <;> rfl

@[simp] theorem withReadGran_called : (s.withReadGran g).called = s.called.withReadGran g := by
  simp [State.called]

@[simp] theorem withReadGran_sampleBusy : (s.withReadGran g).sampleBusy = s.sampleBusy := by
  simp [State.sampleBusy]

@[simp] theorem withReadGran_late (d : Drawn) : (s.withReadGran g).late d = (s.late d).withReadGran g := by
  unfold State.late
  rw [withReadGran_inFlight]
  cases s.inFlight with
  | none => rfl
  | some f => cases f <;> rfl

@[simp] theorem withReadGran_reconfigure (d : Drawn) :
    (s.withReadGran g).reconfigure d = (s.reconfigure d).withReadGran g := by
  unfold State.reconfigure
  rw [withReadGran_busy]
  split <;> rfl

@[simp] theorem withReadGran_windowBytes (pa n : Nat) : (s.withReadGran g).windowBytes pa n = s.windowBytes pa n := by
  simp only [State.windowBytes, withReadGran_called, withReadGran_drawn]
  rfl

@[simp] theorem withReadGran_statusGet : (s.withReadGran g).statusGet = s.statusGet.withReadGran g := by
  simp only [State.statusGet, withReadGran_called, withReadGran_nextStatus, withReadGran_sampleBusy]
  rfl

@[simp] theorem withReadGran_bankSelect (b : Nat) :
    (s.withReadGran g).bankSelect b = (s.bankSelect b).withReadGran g := by
  simp only [State.bankSelect, withReadGran_called, withReadGran_ready]
  split <;> rfl

@[simp] theorem withReadGran_program (src : List Byte) (pa n : Nat) :
    (s.withReadGran g).program src pa n = (s.program src pa n).withReadGran g := by
  simp only [State.program, withReadGran_called, withReadGran_ready, withReadGran_nextStatus]
  split
  · split <;> rfl
  · rfl

@[simp] theorem withReadGran_eraseBlock (pa n : Nat) :
    (s.withReadGran g).eraseBlock pa n = (s.eraseBlock pa n).withReadGran g := by
  simp only [State.eraseBlock, withReadGran_called, withReadGran_ready, withReadGran_nextStatus]
  split
  · split <;> rfl
  · rfl

@[simp] theorem withReadGran_memRead (pa n : Nat) :
    (s.withReadGran g).memRead pa n = (s.memRead pa n).withReadGran g := by
  simp only [State.memRead, withReadGran_called, withReadGran_ready, withReadGran_windowBytes]
  split <;> rfl

@[simp] theorem withReadGran_peripheralOpen : (s.withReadGran g).peripheralOpen = s.peripheralOpen.withReadGran g := by
  simp only [State.peripheralOpen, withReadGran_called, withReadGran_drawn, withReadGran_reconfigure]
  rfl

@[simp] theorem withReadGran_directWrite (bytes : List Byte) (keep : Bool) :
    (s.withReadGran g).directWrite bytes keep = (s.directWrite bytes keep).withReadGran g := by
  simp only [State.directWrite, withReadGran_called, withReadGran_drawn, withReadGran_reconfigure]
  rfl

@[simp] theorem withReadGran_directRead (n : Nat) :
    (s.withReadGran g).directRead n = (s.directRead n).withReadGran g := by
  simp only [State.directRead, withReadGran_called, withReadGran_drawn, withReadGran_reconfigure]
  rfl

@[simp] theorem withReadGran_peripheralClose :
    (s.withReadGran g).peripheralClose = s.peripheralClose.withReadGran g := by
  simp only [State.peripheralClose, withReadGran_called, withReadGran_drawn, withReadGran_reconfigure]
  rfl

/-! ### One lemma per sequencer state that calls the peripheral or reads the configuration -/

theorem withReadGran_validateRange (address length : Nat) :
    validateRange (s.withReadGran g).cfg address length = validateRange s.cfg address length := rfl

theorem withReadGran_checkBuffer : (s.withReadGran g).checkBuffer = s.checkBuffer.withReadGran g := by
  simp only [State.checkBuffer, State.checkRange, withReadGran_regs, withReadGran_validateRange]
  cases validateBuf s.regs.bufValid
  case ok => cases validateRange s.cfg s.regs.addr s.regs.len <;> rfl
  all_goals rfl

theorem withReadGran_checkErase : (s.withReadGran g).checkErase = s.checkErase.withReadGran g := by
  simp only [State.checkErase, withReadGran_regs, withReadGran_validateRange]
  cases validateRange s.cfg s.regs.addr s.regs.len <;> rfl

/-- R125: `S_CHECK` looks at `READ_GRAN` for GET_READ_SIZE only. -/
theorem withReadGran_visitCheck (h : s.regs.op ≠ 6) : (s.withReadGran g).visitCheck = s.visitCheck.withReadGran g := by
  have hclear : { s.withReadGran g with regs := s.regs.clearLatch } =
      { s with regs := s.regs.clearLatch }.withReadGran g := rfl
  simp only [State.visitCheck, withReadGran_regs, hclear, withReadGran_checkBuffer, withReadGran_checkErase]
  split
  case h_7 h6 => exact absurd (BitVec.eq_of_toNat_eq (y := 6) h6) h
  all_goals rfl

theorem withReadGran_visitBank : (s.withReadGran g).visitBank = s.visitBank.withReadGran g := by
  simp only [State.visitBank, withReadGran_regs, withReadGran_bankSelect, withReadGran_nextStatus]
  split <;> rfl

theorem withReadGran_visitXfer : (s.withReadGran g).visitXfer = s.visitXfer.withReadGran g := by
  simp only [State.visitXfer, State.xferRead, State.xferProgram, State.xferErase, withReadGran_regs, withReadGran_hb,
    withReadGran_memRead, withReadGran_windowBytes, withReadGran_program, withReadGran_eraseBlock,
    withReadGran_nextStatus]
  repeat' split
  all_goals rfl

theorem withReadGran_visitPoll : (s.withReadGran g).visitPoll = s.visitPoll.withReadGran g := by
  have hdec : { s.statusGet.withReadGran g with regs := { s.statusGet.regs with
      pollCnt := s.statusGet.regs.pollCnt - 1 } } = { s.statusGet with regs := { s.statusGet.regs with
      pollCnt := s.statusGet.regs.pollCnt - 1 } }.withReadGran g := rfl
  simp only [State.visitPoll, withReadGran_statusGet, withReadGran_regs, withReadGran_nextStatus,
    withReadGran_sampleBusy, withReadGran_drawn, hdec, withReadGran_late]
  repeat' split
  all_goals rfl

theorem withReadGran_visitHsOpen : (s.withReadGran g).visitHsOpen = s.visitHsOpen.withReadGran g := by
  simp only [State.visitHsOpen, withReadGran_peripheralOpen, withReadGran_nextStatus]
  split <;> rfl

theorem withReadGran_visitHsWren : (s.withReadGran g).visitHsWren = s.visitHsWren.withReadGran g := by
  simp only [State.visitHsWren, withReadGran_directWrite, withReadGran_nextStatus]
  split <;> rfl

theorem withReadGran_visitHsWrsr : (s.withReadGran g).visitHsWrsr = s.visitHsWrsr.withReadGran g := by
  simp only [State.visitHsWrsr, withReadGran_directWrite, withReadGran_nextStatus]
  split <;> rfl

theorem withReadGran_visitHsRdbk : (s.withReadGran g).visitHsRdbk = s.visitHsRdbk.withReadGran g := by
  simp only [State.visitHsRdbk, withReadGran_directWrite, withReadGran_nextStatus]
  split <;> rfl

theorem withReadGran_visitHsRead : (s.withReadGran g).visitHsRead = s.visitHsRead.withReadGran g := by
  simp only [State.visitHsRead, withReadGran_cfg, withReadGran_directRead, withReadGran_directReadBytes,
    withReadGran_nextStatus]
  repeat' split
  all_goals rfl

theorem withReadGran_visitClose : (s.withReadGran g).visitClose = s.visitClose.withReadGran g := by
  have hclosed : { s.withReadGran g with opened := false } = { s with opened := false }.withReadGran g := rfl
  simp only [State.visitClose, hclosed, withReadGran_peripheralClose, withReadGran_nextStatus]
  split <;> rfl

/-- R125, R142: no other visit looks at `READ_GRAN`. -/
theorem withReadGran_visit (h : s.regs.op ≠ 6) : (s.withReadGran g).visit = s.visit.withReadGran g := by
  unfold State.visit
  rw [withReadGran_fsm]
  cases s.fsm
  case check => exact withReadGran_visitCheck g s h
  case bank => exact withReadGran_visitBank g s
  case xfer => exact withReadGran_visitXfer g s
  case poll => exact withReadGran_visitPoll g s
  case hsOpen => exact withReadGran_visitHsOpen g s
  case hsWren => exact withReadGran_visitHsWren g s
  case hsWrsr => exact withReadGran_visitHsWrsr g s
  case hsRdbk => exact withReadGran_visitHsRdbk g s
  case hsRead => exact withReadGran_visitHsRead g s
  case close => exact withReadGran_visitClose g s
  all_goals rfl

end

/-! ### The whole command -/

theorem withReadGran_tick (g : Nat) {s : State} (h : s.regs.op ≠ 6) :
    (s.withReadGran g).tick = s.tick.withReadGran g := by
  match hr : s.resets with
  | [] => rw [tick_of_noReset hr, tick_of_noReset (s := s.withReadGran g) hr, withReadGran_visit g s h]
  | 0 :: _ =>
    rw [tick_of_due hr, tick_of_due (s := s.withReadGran g) hr]
    rfl
  | (k + 1) :: later =>
    rw [tick_of_later hr, tick_of_later (s := s.withReadGran g) hr]
    exact withReadGran_visit g { s with resets := k :: later } h

/-- A step keeps the opcode of a command, or a reset leaves that of OPEN. -/
theorem tick_op_ne {s : State} {op : Opcode} (hop : op ≠ 0) (h : s.regs.op ≠ op) : s.tick.regs.op ≠ op :=
  tick_keeps (P := fun u => u.regs.op ≠ op) (fun _ _ h => h) (fun u h => (visit_exit u).op ▸ h) (fun _ _ => hop.symm) h

theorem withReadGran_run (g n : Nat) {s : State} (h : s.regs.op ≠ 6) :
    (s.withReadGran g).run n = (s.run n).withReadGran g := by
  induction n generalizing s with
  | zero => rfl
  | succ n ih =>
    by_cases hi : s.fsm = .idle
    · rw [run_of_idle hi, run_of_idle (s := s.withReadGran g) hi]
    · rw [run_succ hi, run_succ (s := s.withReadGran g) hi, withReadGran_tick g h, ih (tick_op_ne nofun h)]

theorem withReadGran_bufferFits (i : Instr) (g : Nat) (s : State) :
    (s.withReadGran g).bufferFits i = s.bufferFits i := by
  cases i <;> rfl

theorem opcode_ne_of_ne_getReadSize {i : Instr} (h : i ≠ .getReadSize) : i.opcode ≠ 6 := by
  cases i <;> simp [Instr.opcode] at h ⊢

/-- Settles O48: the two runs go through the same states but for `READ_GRAN`, which is not observed. -/
theorem readGranularityEntersNoTransfer : Obligations.ReadGranularityEntersNoTransfer := by
  intro i s g hi
  change observe (exec i (s.withReadGran g)) = observe (exec i s)
  have hop : (s.accept (i.load s.regs)).regs.op ≠ 6 := by simpa using opcode_ne_of_ne_getReadSize hi
  by_cases hb : s.bufferFits i = true
  · by_cases hidle : s.fsm = .idle
    · have hrun := withReadGran_run g (commandBound i s) hop
      rw [exec_of_idle hb hidle, exec_of_idle ((withReadGran_bufferFits i g s).trans hb) hidle]
      have hseen := congrArg (fun t => observe (.next t)) hrun
      exact hseen
    · simp [exec_eq_command, State.command, withReadGran_bufferFits, hb, hidle]
  · simp [exec_eq_command, withReadGran_bufferFits, hb]

end Sys2Proof.Machine
end

section
/-! Settling the statements of spec/41_status_poll.md: one sample of the status poll (R131, R132), then a whole poll as
a run of busy samples and the sample that ends it (R133). -/

namespace Sys2Proof.Machine

/-! ### One sample -/

theorem tick_of_poll {s : State} (hf : s.fsm = .poll) (hr : s.resets = []) : s.tick = s.visitPoll := by
  rw [tick_of_noReset hr, State.visit, hf]

/-- Settles O11, by the four ways out of `S_POLL`. -/
theorem pollSampleTestsErrorThenBusyThenCounter : Obligations.PollSampleTestsErrorThenBusyThenCounter := by
  intro s hf hr
  rw [tick_of_poll hf hr]
  rcases visitPoll_cases s with ⟨h0, e⟩ | ⟨h0, hb, e⟩ | ⟨h0, hb, hc, e⟩ | ⟨h0, hb, hc, e⟩
  · simp [e, h0, Regs.latch]
  · simp [e, h0, hb]
  · simp [e, h0, hb, Regs.latch, Nat.sub_eq_zero_of_le hc, Nat.not_lt.mpr hc]
  · simp [e, h0, hb, hf, hc, Nat.ne_of_gt hc]

/-- A poll that goes on has drawn one answer, and its operation is still in flight. -/
theorem tick_of_pollsAgain {s : State} (hf : s.fsm = .poll) (hr : s.resets = []) (h0 : s.nextStatus = 0)
    (hb : s.sampleBusy = true) (hc : 1 < s.regs.pollCnt) :
    s.tick.script = s.script.tail ∧ s.tick.inFlight.isSome = true := by
  rw [tick_of_poll hf hr]
  rcases visitPoll_cases s with ⟨h, -⟩ | ⟨-, h, -⟩ | ⟨-, -, h, -⟩ | ⟨-, -, -, e⟩
  · exact absurd h0 h
  · simp [hb] at h
  · omega
  · exact ⟨by simp [e], by rw [e]; exact hb⟩

/-! ### A run of samples -/

/-- The oracle's answer `k` makes a sample that says busy: no error, and the operation goes on. -/
def State.AnswersBusy (s : State) (k : Nat) : Prop :=
  (s.answer k).status % 2 ^ s.cfg.perrW = 0 ∧ (s.answer k).settled = false

/-- `t` is what the poll that starts in `s` has come to after `i` samples that all said busy. -/
structure State.PollsBusy (s : State) (i : Nat) (t : State) : Prop where
  fsm      : t.fsm = .poll
  resets   : t.resets = []
  inFlight : t.inFlight.isSome = true
  cfg      : t.cfg = s.cfg
  answer   : ∀ k, t.answer k = s.answer (i + k)
  pollCnt  : t.regs.pollCnt = s.regs.pollCnt - i
  trace    : t.trace = s.trace ++ List.replicate i (.statusGet 0 true)

section
variable {s t : State} {i : Nat}

theorem pollsBusy_zero (hf : s.fsm = .poll) (hr : s.resets = []) (hi : s.inFlight.isSome = true) : s.PollsBusy 0 s where
  fsm := hf
  resets := hr
  inFlight := hi
  cfg := rfl
  answer k := by rw [Nat.zero_add]
  pollCnt := rfl
  trace := by simp

/-- The status of the next sample is that of the oracle's answer `i`. -/
theorem State.PollsBusy.nextStatus (h : s.PollsBusy i t) :
    t.nextStatus = (s.answer i).status % 2 ^ s.cfg.perrW := by
  simp [State.nextStatus, State.drawn, Drawn.code, h.answer, h.cfg]

/-- The next sample says busy unless answer `i` completes the operation. -/
theorem State.PollsBusy.sampleBusy (h : s.PollsBusy i t) : t.sampleBusy = !(s.answer i).settled := by
  simp [sampleBusy_eq, h.answer, h.inFlight]

theorem State.PollsBusy.step (h : s.PollsBusy i t) (hb : s.AnswersBusy i) (hc : i + 1 < s.regs.pollCnt) :
    s.PollsBusy (i + 1) t.tick := by
  have h0 : t.nextStatus = 0 := h.nextStatus.trans hb.1
  have hbusy : t.sampleBusy = true := by simp [h.sampleBusy, hb.2]
  have hcnt : 1 < t.regs.pollCnt := by rw [h.pollCnt]; omega
  obtain ⟨htrace, hdraws, -, -, -, hagain⟩ := pollSampleTestsErrorThenBusyThenCounter t h.fsm h.resets
  obtain ⟨hfsm, hregs⟩ := hagain h0 hbusy hcnt
  obtain ⟨hscript, hflight⟩ := tick_of_pollsAgain h.fsm h.resets h0 hbusy hcnt
  exact {
    fsm := hfsm
    resets := tick_resets_of_nil h.resets
    inFlight := hflight
    cfg := (tick_cfg t).trans h.cfg
    answer := fun k => by rw [answer_of_draws hscript hdraws, h.answer, Nat.add_right_comm, Nat.add_assoc]
    pollCnt := by rw [hregs]; simp [h.pollCnt, Nat.sub_sub]
    trace := by rw [htrace, h.trace, h0, hbusy, List.replicate_succ', List.append_assoc] }

theorem ticks_succ_eq_tick (n : Nat) (s : State) : s.ticks (n + 1) = (s.ticks n).tick := by
  induction n generalizing s with
  | zero => rfl
  | succ n ih => exact ih s.tick

/-- Fewer busy samples than the counter leave the poll going (R133). -/
theorem State.PollsBusy.ticks (h : s.PollsBusy 0 s) (hb : ∀ k, k < i → s.AnswersBusy k) (hc : i < s.regs.pollCnt) :
    s.PollsBusy i (s.ticks i) := by
  induction i with
  | zero => exact h
  | succ i ih =>
    rw [ticks_succ_eq_tick]
    exact (ih (fun k hk => hb k (by omega)) (by omega)).step (hb i (by omega)) hc

end

/-- Settles O12: the busy samples before the last one keep the poll going, and what the last one does is O11. -/
theorem pollCountsItsSamples : Obligations.PollCountsItsSamples := by
  rintro s n hf hr hi rfl hpos
  have hstart := pollsBusy_zero hf hr hi
  refine ⟨fun hb => ?timeout, fun i hlt hb h0 hsettled => ?ok⟩
  case timeout =>
    obtain ⟨m, hm⟩ : ∃ m, s.regs.pollCnt = m + 1 := Nat.exists_eq_add_one.mpr hpos
    obtain ⟨h0, hbusy⟩ := hb m (by omega)
    have h : s.PollsBusy m (s.ticks m) := hstart.ticks (fun k hk => hb k (by omega)) (by omega)
    have h0' : (s.ticks m).nextStatus = 0 := h.nextStatus.trans h0
    have hbusy' : (s.ticks m).sampleBusy = true := by simp [h.sampleBusy, hbusy]
    obtain ⟨htrace, -, -, -, hlast, -⟩ := pollSampleTestsErrorThenBusyThenCounter (s.ticks m) h.fsm h.resets
    obtain ⟨hfsm, hregs⟩ := hlast h0' hbusy' (by rw [h.pollCnt]; omega)
    rw [hm, ticks_succ_eq_tick, hregs]
    exact ⟨hfsm, rfl, rfl, rfl, by rw [htrace, h.trace, h0', hbusy', List.replicate_succ', List.append_assoc]⟩
  case ok =>
    have h : s.PollsBusy i (s.ticks i) := hstart.ticks hb hlt
    have h0' : (s.ticks i).nextStatus = 0 := h.nextStatus.trans h0
    have hready : (s.ticks i).sampleBusy = false := by simp [h.sampleBusy, hsettled]
    obtain ⟨htrace, -, -, hok, -, -⟩ := pollSampleTestsErrorThenBusyThenCounter (s.ticks i) h.fsm h.resets
    obtain ⟨hfsm, hregs⟩ := hok h0' hready
    have hidle : (s.ticks i).tick.inFlight = none := by
      rw [tick_of_noReset h.resets]; exact visit_inFlight_of_notBusy h.fsm hready
    rw [ticks_succ_eq_tick, hregs]
    exact ⟨hfsm, h.pollCnt, hidle, by rw [htrace, h.trace, h0', hready]⟩

end Sys2Proof.Machine
end

section
/-! Transfers that pass validation, layer 1: the ways out of the sequencer states they visit, and what the registers
hold in each of them (R140, R150, R160). READ, PROGRAM and ERASE share it. -/

namespace Sys2Proof.Machine

/-! ### The ways out of a transfer's sequencer states -/

/-- The logical address at which a transfer's cursor starts (R140, R150, R160). -/
def transferStart (c : Config) (op : Opcode) (address : Nat) : Nat := if op = 4 then eraseStart c address else address

/-- The registers of a transfer that passes `S_CHECK`. -/
def State.loadedRegs (s : State) : Regs :=
  s.regs.clearLatch.start (transferStart s.cfg s.regs.op s.regs.addr) (if s.regs.op = 4 then s.regs.bufOff else 0)

/-- What every sequencer state of a transfer that passes validation meets. -/
structure State.Transfers (s : State) : Prop where
  config    : s.cfg.wf = true
  op        : s.regs.op = 2 ∨ s.regs.op = 3 ∨ s.regs.op = 4
  valid     : ∀ k, ¬s.Rejected k
  lifecycle : s.fsm.inLifecycle = false
  loop      : s.loopOk
  clean     : s.fsm.inLoop = true → s.regs.stKind = .ok ∧ s.regs.stInfo = 0
  nonempty  : s.fsm.inLoop = true → 0 < s.regs.len

/-- The ways out of a transfer's sequencer states: those of `State.Exit` that are left to it. -/
inductive State.TransferExit (s : State) : State → Prop
  | loads : s.fsm = .check →
      TransferExit s { s with regs := s.loadedRegs, fsm := if s.regs.len = 0 then .resp else .xlate }
  | translates : s.fsm = .xlate → TransferExit s s.visitXlate
  | selects : s.fsm = .bank → s.nextStatus = 0 → TransferExit s ((s.bankSelect s.regs.bank).goto .seg)
  | selectFails : s.fsm = .bank → s.nextStatus ≠ 0 →
      TransferExit s ((s.bankSelect s.regs.bank).raise .deviceError s.nextStatus)
  | measures : s.fsm = .seg → TransferExit s s.visitSeg
  | copies : s.fsm = .xfer → s.regs.op = 2 → TransferExit s s.xferRead
  | issues (t : State) : s.fsm = .xfer → s.regs.op ≠ 2 → s.Mutates t → s.nextStatus = 0 → TransferExit s t.startPoll
  | issueFails (t : State) : s.fsm = .xfer → s.regs.op ≠ 2 → s.Mutates t → s.nextStatus ≠ 0 →
      TransferExit s (t.raise .deviceError s.nextStatus)
  | pollFails : s.fsm = .poll → s.nextStatus ≠ 0 →
      TransferExit s ((s.statusGet.spoil s.sampleBusy s.drawn (s.statusGet.deviceAddress s.regs.pa) s.regs.segLen).raise
        .deviceError s.nextStatus)
  | completes : s.fsm = .poll → s.nextStatus = 0 → s.sampleBusy = false → TransferExit s (s.statusGet.goto .adv)
  | timesOut : s.fsm = .poll → s.nextStatus = 0 → s.sampleBusy = true → s.regs.pollCnt ≤ 1 →
      TransferExit s
        (({ s.statusGet with regs := { s.regs with pollCnt := s.regs.pollCnt - 1 } }.late s.drawn).raise .timeout 0)
  | pollsAgain : s.fsm = .poll → s.nextStatus = 0 → s.sampleBusy = true → 1 < s.regs.pollCnt →
      TransferExit s { s.statusGet with regs := { s.regs with pollCnt := s.regs.pollCnt - 1 } }
  | advances : s.fsm = .adv → TransferExit s s.visitAdv
  | responds : s.fsm = .resp → TransferExit s s.respond

/-- A transfer that passes validation is not rejected, and makes no call of OPEN or CLOSE. -/
theorem State.Exit.transfer {s t : State} (h : s.Exit t) (hs : s.Transfers) (hi : s.fsm ≠ .idle) :
    s.TransferExit t := by
  have hop := hs.op
  have hlife := hs.lifecycle
  cases h
  case waits hf => exact absurd hf hi
  case rejects k _ hk => exact absurd hk (hs.valid k)
  case loads hf h23 _ =>
    have h4 : s.regs.op ≠ 4 := by rcases h23 with e | e <;> simp [e]
    have hload := State.TransferExit.loads hf
    rwa [State.loadedRegs, transferStart, if_neg h4, if_neg h4] at hload
  case loadsErase hf h4 _ =>
    have hload := State.TransferExit.loads hf
    rwa [State.loadedRegs, transferStart, if_pos h4, if_pos h4] at hload
  case translates hf => exact .translates hf
  case measures hf => exact .measures hf
  case copies hf h2 => exact .copies hf h2
  case issues u hf h2 hm h0 => exact .issues u hf h2 hm h0
  case issueFails u hf h2 hm h0 => exact .issueFails u hf h2 hm h0
  case pollFails hf h0 => exact .pollFails hf h0
  case completes hf h0 hb => exact .completes hf h0 hb
  case timesOut hf h0 hb hc => exact .timesOut hf h0 hb hc
  case pollsAgain hf h0 hb hc => exact .pollsAgain hf h0 hb hc
  case advances hf => exact .advances hf
  case responds hf => exact .responds hf
  case lifecycle h01 => rcases h01 with ⟨e, -⟩ | ⟨e, -⟩ <;> simp [e] at hop
  case answers hv => exact absurd hv (not_query_of_opcode (.inl (by rcases hop with e | e | e <;> simp [e])))
  case answersType h9 => simp [h9] at hop
  case called hc h0 =>
    cases hc
    case bank hf => exact .selects hf h0
    all_goals simp [Fsm.inLifecycle, *] at hlife
  case callFails hc h0 =>
    cases hc
    case bank hf => exact .selectFails hf h0
    all_goals simp [Fsm.inLifecycle, *] at hlife
  case readBackFails hf _ => simp [Fsm.inLifecycle, hf] at hlife
  case mismatches hf _ _ => simp [Fsm.inLifecycle, hf] at hlife
  case opens hf _ _ => simp [Fsm.inLifecycle, hf] at hlife

/-! ### What every way out keeps -/

/-- What `S_CHECK` rejects depends on the operands and the configuration only. -/
theorem rejected_congr {s t : State} (hr : t.regs.operands = s.regs.operands) (hc : t.cfg = s.cfg) (k : Kind) :
    t.Rejected k ↔ s.Rejected k := by
  simp only [Regs.operands, Prod.mk.injEq] at hr
  obtain ⟨hop, hbuf, haddr, hlen⟩ := hr
  rw [State.Rejected, State.Rejected, hop, hbuf, haddr, hlen, hc]

theorem State.Exit.addr {s t : State} (h : s.Exit t) : t.regs.addr = s.regs.addr :=
  congrArg (fun o => o.2.2.1) h.operands

/-- No way out leads back to `S_CHECK`. -/
theorem State.TransferExit.fsm_ne_check {s t : State} (h : s.TransferExit t) : t.fsm ≠ .check := by
  cases h
  case loads => by_cases hz : s.regs.len = 0 <;> simp [hz]
  case advances => simp only [State.visitAdv]; split <;> simp
  all_goals simp_all [State.visitXlate, State.visitSeg, State.xferRead]

/-- A state of the segment loop has clear latches, if the state before it has. -/
theorem State.TransferExit.clean {s t : State} (h : s.TransferExit t) (hs : s.Transfers) (ht : t.fsm.inLoop = true) :
    t.regs.stKind = .ok ∧ t.regs.stInfo = 0 := by
  cases h
  case loads => exact ⟨rfl, rfl⟩
  case translates hf => exact hs.clean (by rw [hf]; rfl)
  case selects hf _ => simpa using hs.clean (by rw [hf]; rfl)
  case measures hf => exact hs.clean (by rw [hf]; rfl)
  case copies hf _ => simpa [State.xferRead] using hs.clean (by rw [hf]; rfl)
  case issues hf _ hm _ => simpa [hm.regs] using hs.clean (by rw [hf]; rfl)
  case completes hf _ _ => simpa using hs.clean (by rw [hf]; rfl)
  case pollsAgain hf _ _ _ => exact hs.clean (by rw [hf]; rfl)
  case advances hf => exact hs.clean (by rw [hf]; rfl)
  all_goals simp [Fsm.inLoop] at ht

/-- The transfer has not failed: its checks are to come, or its latch is Ok. -/
def State.Unfailed (s : State) : Prop := s.fsm = .check ∨ s.regs.stKind = .ok

/-- What has not failed after a visit had not failed before it. -/
theorem State.TransferExit.unfailed {s t : State} (h : s.TransferExit t) (hs : s.Transfers)
    (hok : t.Unfailed) : s.Unfailed := by
  by_cases hin : s.fsm.inLoop = true
  · exact .inr (hs.clean hin).1
  · cases h
    case loads hf => exact .inl hf
    case responds => exact .inr (by simpa [State.Unfailed] using hok)
    all_goals simp_all [Fsm.inLoop]

/-- The segment loop is entered for at least one byte. -/
theorem State.TransferExit.nonempty {s t : State} (h : s.TransferExit t) (hs : s.Transfers) (ht : t.fsm.inLoop = true)
    (hlen : t.regs.len = s.regs.len) : 0 < t.regs.len := by
  rw [hlen]
  by_cases hf : s.fsm.inLoop = true
  · exact hs.nonempty hf
  · cases h
    case loads =>
      by_contra hz
      simp [Nat.eq_zero_of_not_pos hz, Fsm.inLoop] at ht
    all_goals simp_all [Fsm.inLoop]

theorem State.Exit.transfers {s t : State} (h : s.Exit t) (hs : s.Transfers) (hi : s.fsm ≠ .idle) : t.Transfers where
  config := h.cfg ▸ hs.config
  op := h.op ▸ hs.op
  valid := fun k hk => hs.valid k ((rejected_congr h.operands h.cfg k).1 hk)
  lifecycle := by
    have hop := hs.op
    rw [← Bool.not_eq_true]
    intro ht
    rcases h.inLifecycle ht with hl | e | e
    · simp [hs.lifecycle] at hl
    · simp [e] at hop
    · simp [e] at hop
  loop := h.loopOk hs.config hs.loop
  clean := (h.transfer hs hi).clean hs
  nonempty := fun ht => (h.transfer hs hi).nonempty hs ht h.len

theorem transfers_accept {i : Instr} {s : State} (hc : s.cfg.wf = true)
    (hop : i.opcode = 2 ∨ i.opcode = 3 ∨ i.opcode = 4)
    (hv : ∀ k, ¬(s.accept (i.load s.regs)).Rejected k) : (s.accept (i.load s.regs)).Transfers where
  config := hc
  op := by simpa using hop
  valid := hv
  lifecycle := rfl
  loop := loopOk_of_outside rfl
  clean := nofun
  nonempty := nofun

/-- What the acceptance of a valid transfer establishes, and every way out of its states keeps, holds of the state the
command leaves. -/
theorem exec_keeps_of_transfer {P : State → Prop} {i : Instr} {s t : State} (hr : s.resets = [])
    (h : exec i s = .next t)
    (hs : (s.accept (i.load s.regs)).Transfers) (hacc : P (s.accept (i.load s.regs)))
    (hexit : ∀ u v : State, u.Transfers → u.Exit v → u.TransferExit v → P u → P v) : P t := by
  refine (exec_keeps_of_visit (P := fun u => u.Transfers ∧ P u) hr h ⟨hs, hacc⟩ fun u hi ⟨hu, hP⟩ => ?_).2
  have e := visit_exit u
  exact ⟨e.transfers hu hi, hexit u _ hu e (e.transfer hu hi) hP⟩

/-! ### What every command leaves alone -/

theorem exec_hc {i : Instr} {s t : State} (h : exec i s = .next t) : t.hc = s.hc := by
  obtain ⟨-, -, rfl⟩ := exec_next h
  simp

theorem exec_resets_of_nil {i : Instr} {s t : State} (hr : s.resets = []) (h : exec i s = .next t) : t.resets = [] :=
  exec_keeps (P := fun u => u.resets = []) h hr fun _ _ => tick_resets_of_nil

end Sys2Proof.Machine
end

section
/-! Transfers that pass validation, layer 2: how far a transfer has come. Its segments follow each other without a gap
from the first to the end of the request (R141, R151, R160, R167). -/

namespace Sys2Proof.Machine

/-! ### Segments follow each other -/

section
variable {c : Config} {r : Regs}

theorem segmentStart_of_ne {op : Opcode} (h : op ≠ 4) (cursor : Nat) : segmentStart c op cursor = cursor := if_neg h

/-- ERASE translates the first byte of the cursor's block, in both modes. -/
theorem segmentStart_erase {cursor : Nat} (hal : c.eraseMode = .perGranule → cursor % c.eraseGran = 0) :
    segmentStart c 4 cursor = alignDownBlock c cursor := by
  cases hmode : c.eraseMode
  · simp [segmentStart, hmode, alignDownBlock, Nat.div_mul_cancel (Nat.dvd_of_mod_eq_zero (hal hmode))]
  · simp [segmentStart, hmode]

/-- The next block starts where the cursor's block ends, in both modes (R121, R160, R167). -/
theorem alignDownBlock_add_eraseStep (hc : c.wf = true) {cursor : Nat}
    (hal : c.eraseMode = .perGranule → cursor % c.eraseGran = 0) :
    cursor + eraseStep c cursor = alignDownBlock c cursor + c.eraseGran := by
  obtain ⟨-, -, -, -, he, -⟩ := wf_facts hc
  have hdm := Nat.div_add_mod' cursor c.eraseGran
  have hlt := Nat.mod_lt cursor he
  unfold eraseStep alignDownBlock
  cases hmode : c.eraseMode
  · have := hal hmode
    simp only
    omega
  · simp only [remainBlock]
    omega

/-- The next segment starts where this one ends. -/
theorem segmentStart_add_advanceStep (hc : c.wf = true) (ht : r.Transferring c) (hm : r.Measured c) :
    segmentStart c r.op (r.cursor + advanceStep c r.op r.cursor r.segLen) =
      segmentStart c r.op r.cursor + r.segLen := by
  by_cases h4 : r.op = 4
  · have hal := ht.aligned h4
    have hnext := alignDownBlock_add_eraseStep hc hal
    have hblock : (alignDownBlock c r.cursor + c.eraseGran) % c.eraseGran = 0 := by simp
    rw [hm, h4, segmentLength_erase, advanceStep, if_pos rfl, hnext, segmentStart_erase hal,
      segmentStart_erase fun _ => hblock, alignDownBlock, Nat.div_mul_cancel (Nat.dvd_of_mod_eq_zero hblock)]
  · rw [segmentStart_of_ne h4, segmentStart_of_ne h4, advanceStep, if_neg h4]

/-- R114, R121: the last byte of a segment lies in the bank of its first. -/
theorem translateBank_segment (hc : c.wf = true) (ht : r.Transferring c) (hm : r.Measured c) :
    translateBank c (segmentStart c r.op r.cursor + r.segLen - 1) = translateBank c (segmentStart c r.op r.cursor) := by
  obtain ⟨hw, -⟩ := wf_facts hc
  have hlen := segmentLength_le_remainWindow hc ht
  have hpos := segmentLength_pos hc r.op r.cursor ht.left
  rw [← hm] at hlen hpos
  have hdm := Nat.div_add_mod (segmentStart c r.op r.cursor) c.window
  have hlt := Nat.mod_lt (segmentStart c r.op r.cursor) hw
  unfold remainWindow at hlen
  unfold translateBank
  rw [Nat.div_eq_iff hw]
  rw [Nat.mul_comm] at hdm
  omega

end

/-! ### How far a transfer has come -/

/-- Where the cursor of the next segment stands, once the segments complete so far are counted. -/
def State.nextCursor (s : State) : Nat :=
  match s.fsm with
  | .check => transferStart s.cfg s.regs.op s.regs.addr
  | .adv => s.regs.cursor + advanceStep s.cfg s.regs.op s.regs.cursor s.regs.segLen
  | _ => s.regs.cursor

/-- The address up to which the segments of a transfer are complete. -/
def State.frontier (s : State) : Nat := segmentStart s.cfg s.regs.op s.nextCursor

theorem frontier_of_ne {s : State} (h : s.regs.op ≠ 4) : s.frontier = s.nextCursor := segmentStart_of_ne h _

theorem nextCursor_of_cursor {s : State} (h : s.fsm ≠ .check) (h' : s.fsm ≠ .adv) : s.nextCursor = s.regs.cursor := by
  unfold State.nextCursor
  split <;> simp_all

/-- In the segment loop before `S_ADV` the frontier is the start of the segment. -/
theorem frontier_of_cursor {s : State} (h : s.fsm ≠ .check) (h' : s.fsm ≠ .adv) :
    s.frontier = segmentStart s.cfg s.regs.op s.regs.cursor := by
  rw [State.frontier, nextCursor_of_cursor h h']

/-- A segment is complete when `S_ADV` is entered. -/
theorem State.TransferExit.nextCursor {s t : State} (h : s.TransferExit t) : t.nextCursor =
    if t.fsm = .adv then s.regs.cursor + advanceStep s.cfg s.regs.op s.regs.cursor s.regs.segLen else s.nextCursor := by
  cases h
  case loads hf =>
    rw [State.nextCursor, State.nextCursor, hf]
    by_cases hz : s.regs.len = 0 <;> simp [hz] <;> rfl
  case copies => simp [State.nextCursor, State.xferRead]
  case completes => simp [State.nextCursor]
  case advances hf =>
    have hout : s.visitAdv.fsm ≠ .check ∧ s.visitAdv.fsm ≠ .adv := by
      simp only [State.visitAdv]
      split <;> simp
    rw [nextCursor_of_cursor hout.1 hout.2, if_neg hout.2, State.nextCursor, hf]
    rfl
  case issues hf _ hm _ => simp [State.nextCursor, hf, hm.regs]
  case issueFails hf _ hm _ => simp [State.nextCursor, hf, hm.regs, Regs.latch]
  all_goals simp_all [State.nextCursor, State.visitXlate, State.visitSeg, Regs.latch]

/-- `S_ADV` is entered from `S_XFER` of a READ and from `S_POLL`, with the registers as they are. -/
theorem State.TransferExit.of_adv {s t : State} (h : s.TransferExit t) (ht : t.fsm = .adv) :
    (s.fsm = .xfer ∧ s.regs.op = 2 ∧ t = s.xferRead) ∨
      (s.fsm = .poll ∧ s.sampleBusy = false ∧ t = s.statusGet.goto .adv) := by
  cases h
  case copies hf h2 => exact .inl ⟨hf, h2, rfl⟩
  case completes hf h0 hb => exact .inr ⟨hf, hb, rfl⟩
  case loads => by_cases hz : s.regs.len = 0 <;> simp [hz] at ht
  case advances => simp only [State.visitAdv] at ht; split at ht <;> simp at ht
  all_goals simp_all [State.visitXlate, State.visitSeg]

/-- In the state before `S_ADV` the registers describe the segment that is complete. -/
theorem State.TransferExit.segment_of_adv {s t : State} (h : s.TransferExit t) (hs : s.Transfers) (ht : t.fsm = .adv) :
    s.fsm.inLoop = true ∧ s.regs.Measured s.cfg ∧ s.nextCursor = s.regs.cursor := by
  have hf : s.fsm.hasLength = true ∧ s.fsm.inLoop = true ∧ s.fsm ≠ .check ∧ s.fsm ≠ .adv := by
    rcases h.of_adv ht with ⟨hf, -⟩ | ⟨hf, -⟩ <;> simp [hf, Fsm.hasLength, Fsm.inLoop]
  obtain ⟨hlen, hin, hcheck, hadv⟩ := hf
  exact ⟨hin, hs.loop.length hlen, nextCursor_of_cursor hcheck hadv⟩

/-- The frontier moves by a segment when `S_ADV` is entered, and else stays. -/
theorem State.TransferExit.frontier {s t : State} (h : s.TransferExit t) (hs : s.Transfers) (e : s.Exit t) :
    t.frontier = if t.fsm = .adv then s.frontier + s.regs.segLen else s.frontier := by
  rw [State.frontier, h.nextCursor, e.cfg, e.op]
  split
  · rename_i ht
    obtain ⟨hin, hm, hcur⟩ := h.segment_of_adv hs ht
    rw [segmentStart_add_advanceStep hs.config (transferring_of_inLoop hs.loop hin) hm, State.frontier, hcur]
  · rfl

/-- The end of a transfer's segments (R140, R150, R160, R167). -/
def transferEnd (c : Config) (op : Opcode) (address length : Nat) : Nat :=
  if op = 4 then eraseEnd c address length else address + length

/-- Where a transfer stands between its start and its end. -/
structure State.Walks (s : State) : Prop where
  start : transferStart s.cfg s.regs.op s.regs.addr ≤ s.nextCursor
  total : s.fsm.inLoop = true →
    (s.regs.cursor : Int) + s.regs.remaining = transferStart s.cfg s.regs.op s.regs.addr + s.regs.len
  upto  : s.regs.op ≠ 4 → s.nextCursor ≤ s.regs.addr + s.regs.len
  ended : s.fsm = .resp ∨ s.fsm = .idle → s.regs.stKind = .ok →
    s.frontier = transferEnd s.cfg s.regs.op s.regs.addr s.regs.len

/-- R160, R162, R167: the blocks of an ERASE end with the block that takes `remaining` to zero or below. -/
theorem cursor_add_eraseStep_eq_eraseEnd {c : Config} (hc : c.wf = true) {address length cursor : Nat}
    (hlen : 0 < length)
    (hal : c.eraseMode = .perGranule → cursor % c.eraseGran = 0) (hmore : cursor < eraseStart c address + length)
    (hlast : eraseStart c address + length ≤ cursor + eraseStep c cursor) :
    cursor + eraseStep c cursor = eraseEnd c address length := by
  obtain ⟨-, -, -, -, he, -⟩ := wf_facts hc
  rw [alignDownBlock_add_eraseStep hc hal] at hlast ⊢
  unfold eraseEnd
  unfold eraseStart at hmore hlast
  have hdm := Nat.div_add_mod' cursor c.eraseGran
  have hlt := Nat.mod_lt cursor he
  cases hmode : c.eraseMode <;> simp only [hmode, alignDownBlock] at hmore hlast ⊢
  · have hcur := hal hmode
    obtain ⟨d, hd⟩ : ∃ d, cursor / c.eraseGran = address / c.eraseGran + d := by
      refine Nat.exists_eq_add_of_le (Nat.lt_succ_iff.1 (Nat.lt_of_mul_lt_mul_right (a := c.eraseGran) ?_))
      rw [Nat.succ_mul]
      omega
    have hblocks : ceilDiv length c.eraseGran = d + 1 := by
      rw [hd, Nat.add_mul] at hdm hlast
      rw [ceilDiv, Nat.div_eq_iff he, Nat.add_mul]
      omega
    rw [hblocks, hd, Nat.add_mul, Nat.add_mul, Nat.one_mul, Nat.add_assoc]
  · have hblock : (address + length - 1) / c.eraseGran = cursor / c.eraseGran := by
      rw [Nat.div_eq_iff he]
      omega
    rw [if_neg (Nat.ne_of_gt hlen), hblock]

/-- A transfer of length zero is at its end. -/
theorem segmentStart_transferStart {c : Config} (hc : c.wf = true) (op : Opcode) (address : Nat) :
    segmentStart c op (transferStart c op address) = transferEnd c op address 0 := by
  obtain ⟨-, -, -, -, he, -⟩ := wf_facts hc
  by_cases h4 : op = 4
  · subst h4
    have hnone : ceilDiv 0 c.eraseGran * c.eraseGran = 0 := by
      rw [ceilDiv, Nat.zero_add, Nat.div_eq_of_lt (Nat.sub_one_lt_of_lt he), Nat.zero_mul]
    cases hmode : c.eraseMode <;> simp [segmentStart, transferStart, transferEnd, eraseStart, eraseEnd, hmode, hnone]
  · rw [segmentStart_of_ne h4, transferStart, transferEnd, if_neg h4, if_neg h4, Nat.add_zero]

/-- The segment that takes `remaining` to zero or below is the last one. -/
theorem segment_ends {c : Config} {r : Regs} (hc : c.wf = true) (ht : r.Transferring c) (hm : r.Measured c)
    (htotal : (r.cursor : Int) + r.remaining = transferStart c r.op r.addr + r.len) (hlen : 0 < r.len)
    (hlast : r.remaining - (advanceStep c r.op r.cursor r.segLen : Int) ≤ 0) :
    segmentStart c r.op (r.cursor + advanceStep c r.op r.cursor r.segLen) = transferEnd c r.op r.addr r.len := by
  have hleft := ht.left
  by_cases h4 : r.op = 4
  · have hal := ht.aligned h4
    simp only [h4, transferStart, transferEnd, advanceStep, if_true] at htotal hlast ⊢
    rw [← cursor_add_eraseStep_eq_eraseEnd hc hlen hal (by omega) (by omega), alignDownBlock_add_eraseStep hc hal,
      segmentStart_erase fun _ => by simp, alignDownBlock]
    exact Nat.div_mul_cancel (Nat.dvd_of_mod_eq_zero (by simp))
  · have hle := advanceStep_le_remaining ht hm h4
    simp only [transferStart, if_neg h4] at htotal
    rw [segmentStart_of_ne h4, transferEnd, if_neg h4]
    omega

theorem walks_accept (r : Regs) (s : State) : (s.accept r).Walks where
  start := le_rfl
  total := nofun
  upto := fun h4 => by
    have hstart : (s.accept r).nextCursor = r.addr := if_neg h4
    rw [hstart]
    exact Nat.le_add_right _ _
  ended := nofun

theorem nextCursor_of_adv {s : State} (hf : s.fsm = .adv) :
    s.nextCursor = s.regs.cursor + advanceStep s.cfg s.regs.op s.regs.cursor s.regs.segLen := by
  simp [State.nextCursor, hf]

/-- `cursor` and `remaining` change together. -/
theorem State.TransferExit.total {s t : State} (h : s.TransferExit t) (hw : s.Walks) (ht : t.fsm.inLoop = true) :
    (t.regs.cursor : Int) + t.regs.remaining = transferStart s.cfg s.regs.op s.regs.addr + s.regs.len := by
  by_cases hf : s.fsm.inLoop = true
  · have htotal := hw.total hf
    cases h
    case advances =>
      simp only [State.visitAdv]
      omega
    case issues hm _ => simpa [hm.regs] using htotal
    all_goals simp_all [Fsm.inLoop, State.visitXlate, State.visitSeg, State.xferRead]
  · cases h
    case loads => rfl
    all_goals simp_all [Fsm.inLoop]

/-- A transfer that ends with Ok has come to its end. -/
theorem State.TransferExit.ended {s t : State} (h : s.TransferExit t) (hs : s.Transfers) (hw : s.Walks)
    (ht : t.fsm = .resp ∨ t.fsm = .idle) (hok : t.regs.stKind = .ok) :
    segmentStart s.cfg s.regs.op t.nextCursor = transferEnd s.cfg s.regs.op s.regs.addr s.regs.len := by
  rw [h.nextCursor, if_neg (by rcases ht with e | e <;> simp [e])]
  cases h
  case loads hf =>
    have hz : s.regs.len = 0 := by
      by_contra hz
      simp [hz] at ht
    rw [State.nextCursor, hf, hz]
    exact segmentStart_transferStart hs.config _ _
  case advances hf =>
    obtain ⟨htr, hm⟩ := transferring_measured_of_adv hf hs.loop
    rw [nextCursor_of_adv hf]
    refine segment_ends hs.config htr hm (hw.total (by rw [hf]; rfl)) (hs.nonempty (by rw [hf]; rfl)) ?_
    by_contra hmore
    rw [Int.not_le] at hmore
    simp only [State.visitAdv, if_pos hmore] at ht
    simp at ht
  case responds hf => exact hw.ended (.inl hf) hok
  all_goals simp_all [State.visitXlate, State.visitSeg, State.xferRead]

theorem State.TransferExit.walks {s t : State} (h : s.TransferExit t) (hs : s.Transfers) (e : s.Exit t)
    (hw : s.Walks) : t.Walks where
  start := by
    have hstart := hw.start
    rw [e.cfg, e.op, e.addr, h.nextCursor]
    split
    · obtain ⟨-, -, hcur⟩ := h.segment_of_adv hs (by assumption)
      omega
    · exact hstart
  total := fun ht => by
    rw [e.cfg, e.op, e.addr, e.len]
    exact h.total hw ht
  upto := fun h4 => by
    rw [e.op] at h4
    have hupto := hw.upto h4
    rw [e.addr, e.len, h.nextCursor]
    split
    · obtain ⟨hin, hm, -⟩ := h.segment_of_adv hs (by assumption)
      have htr := transferring_of_inLoop hs.loop hin
      have hle := advanceStep_le_remaining htr hm h4
      have htotal := hw.total hin
      rw [transferStart, if_neg h4] at htotal
      omega
    · exact hupto
  ended := fun ht hok => by
    rw [State.frontier, e.cfg, e.op, e.addr, e.len]
    exact h.ended hs hw ht hok

end Sys2Proof.Machine
end

section
/-! Transfers that pass validation, layer 3: an oracle whose answers are all SUCCESS, and whose device finishes in time,
for the calls that are left to a transfer (R63, R71, R202). Such a transfer answers Ok. -/

namespace Sys2Proof.Machine

/-! ### The calls that are left -/

/-- The calls left once the current segment is complete. -/
def callsAfter (c : Config) (r : Regs) : Nat :=
  callBound c (r.remaining - (advanceStep c r.op r.cursor r.segLen : Nat)).toNat

/-- R71: no more primitive calls than this are left to a transfer. -/
def State.callsLeft (s : State) : Nat :=
  match s.fsm with
  | .check => callBound s.cfg s.regs.len
  | .xlate | .bank => callBound s.cfg s.regs.remaining.toNat
  | .seg | .xfer => callBound s.cfg s.regs.remaining.toNat - 1
  | .poll => s.regs.pollCnt + callsAfter s.cfg s.regs
  | .adv => callsAfter s.cfg s.regs
  | _ => 0

/-- A segment has a call of `bank_select`, one more, and the samples of its poll. -/
theorem callsAfter_add_le {c : Config} {r : Regs} (hc : c.wf = true) (ht : r.Transferring c) (hm : r.Measured c) :
    callsAfter c r + (c.pollLimit + 2) ≤ callBound c r.remaining.toNat := by
  have hleft := ht.left
  have hpos := advanceStep_pos hc r.op r.cursor hleft
  rw [← hm] at hpos
  unfold callsAfter callBound
  rw [← Nat.succ_mul]
  exact Nat.mul_le_mul_right _ (by omega)

theorem callBound_pos (c : Config) {remaining : Int} (hleft : 0 < remaining) : 0 < callBound c remaining.toNat :=
  Nat.mul_pos (by omega) (by omega)

/-- What a transfer needs of the oracle to answer Ok: the calls left to it succeed, `m` more do, and the device finishes
in time, a poll in progress included. -/
structure State.Favoured (m : Nat) (s : State) : Prop where
  succeeds : s.allSucceed (s.callsLeft + m)
  finishes : s.regs.op ≠ 2 → s.healthy (s.callsLeft + m)
  polls    : s.fsm = .poll → ∃ j, j < s.regs.pollCnt ∧ (s.answer j).settled = true
  clean    : s.fsm ≠ .check → s.regs.stKind = .ok ∧ s.regs.stInfo = 0

section
variable {m : Nat} {s t : State}

/-- A call that is left to the transfer succeeds. -/
theorem State.Favoured.nextStatus (h : s.Favoured m) (hleft : 0 < s.callsLeft) : s.nextStatus = 0 :=
  h.succeeds 0 (Nat.add_pos_left hleft m)

/-- What a favourable oracle leaves after the command is favourable for `m` calls more. -/
theorem State.Favoured.rest (h : t.Favoured m) :
    t.allSucceed m ∧ (t.regs.op ≠ 2 → t.healthy m) :=
  ⟨fun k hk => h.succeeds k (by omega), fun h2 k hk => h.finishes h2 k (by omega)⟩

/-- A visit that makes no call leaves the oracle as favourable as it was. -/
theorem State.Favoured.of_no_call (h : s.Favoured m) (hans : ∀ k, t.answer k = s.answer k) (hcfg : t.cfg = s.cfg)
    (hop : t.regs.op = s.regs.op) (hleft : t.callsLeft ≤ s.callsLeft) (hpoll : t.fsm ≠ .poll)
    (hclean : t.regs.stKind = .ok ∧ t.regs.stInfo = 0) : t.Favoured m where
  succeeds := fun k hk => by
    rw [hans, hcfg]
    exact h.succeeds k (by omega)
  finishes := fun h2 k hk => by
    simp only [hans, hcfg]
    exact h.finishes (hop ▸ h2) k (by omega)
  polls := fun hf => absurd hf hpoll
  clean := fun _ => hclean

/-- A visit that makes a call takes one of the favourable answers. -/
theorem State.Favoured.of_call (h : s.Favoured m) (hans : ∀ k, t.answer k = s.answer (k + 1)) (hcfg : t.cfg = s.cfg)
    (hop : t.regs.op = s.regs.op) (hleft : t.callsLeft + 1 ≤ s.callsLeft)
    (hpoll : t.fsm = .poll → ∃ j, j < t.regs.pollCnt ∧ (t.answer j).settled = true)
    (hclean : t.regs.stKind = .ok ∧ t.regs.stInfo = 0) : t.Favoured m where
  succeeds := fun k hk => by
    rw [hans, hcfg]
    exact h.succeeds (k + 1) (by omega)
  finishes := fun h2 k hk => by
    obtain ⟨j, hj, hset⟩ := h.finishes (hop ▸ h2) (k + 1) (by omega)
    exact ⟨j, hcfg ▸ hj, by rwa [hans, Nat.add_right_comm]⟩
  polls := hpoll
  clean := fun _ => hclean

end

/-- In the segment loop a call is left, until the last segment is complete. -/
theorem callsLeft_pos {s : State} (hs : s.Transfers) (hf : s.fsm = .bank ∨ s.fsm = .xfer ∨ s.fsm = .poll) :
    0 < s.callsLeft := by
  have hin : s.fsm.inLoop = true := by rcases hf with e | e | e <;> rw [e] <;> rfl
  have hleft := (transferring_of_inLoop hs.loop hin).left
  have hbound := callBound_pos s.cfg hleft
  rcases hf with hf | hf | hf <;> simp only [State.callsLeft, hf]
  · exact hbound
  · obtain hm : s.regs.Measured s.cfg := hs.loop.length (by rw [hf]; rfl)
    have hseg := callsAfter_add_le hs.config (transferring_of_inLoop hs.loop hin) hm
    omega
  · obtain ⟨-, hcnt, -⟩ := hs.loop.poll hf
    omega

theorem answer_of_mutates {s t : State} (h : s.Mutates t) (k : Nat) : t.answer k = s.answer (k + 1) := by
  cases h <;> exact answer_of_draws (by simp) (by simp) k

/-- Every way out of a transfer's states keeps the oracle favourable: no call fails, and no poll runs out. -/
theorem State.TransferExit.favoured {m : Nat} {s t : State} (h : s.TransferExit t) (hs : s.Transfers)
    (hf : s.Favoured m) : t.Favoured m := by
  have hclean (hin : s.fsm ≠ .check) := hf.clean hin
  have hsucc (hin : s.fsm = .bank ∨ s.fsm = .xfer ∨ s.fsm = .poll) := hf.nextStatus (callsLeft_pos hs hin)
  have hafter (hx : s.fsm = .xfer) : callsAfter s.cfg s.regs + (s.cfg.pollLimit + 2) ≤
      callBound s.cfg s.regs.remaining.toNat :=
    callsAfter_add_le hs.config (transferring_of_inLoop hs.loop (by rw [hx]; rfl)) (hs.loop.length (by rw [hx]; rfl))
  cases h
  case loads hc =>
    refine hf.of_no_call (fun _ => rfl) rfl rfl ?_ (by simp only; split <;> simp) ⟨rfl, rfl⟩
    by_cases hz : s.regs.len = 0
    · simp [State.callsLeft, hz]
    · simp only [State.callsLeft, if_neg hz, hc]
      exact le_rfl
  case translates hx =>
    exact hf.of_no_call (fun _ => rfl) rfl rfl (by simp only [State.callsLeft, hx]; exact le_rfl) nofun
      (hclean (by simp [hx]))
  case selects hb _ =>
    have hleft := callsLeft_pos hs (.inl hb)
    simp only [State.callsLeft, hb] at hleft
    refine hf.of_call (answer_of_draws (by simp) (by simp)) (by simp) (by simp) ?_ nofun
      (by simpa using hclean (by simp [hb]))
    simp only [State.callsLeft, hb, goto_fsm, goto_cfg, goto_regs, bankSelect_cfg, bankSelect_regs]
    omega
  case selectFails hb h0 => exact absurd (hsucc (.inl hb)) h0
  case measures hx =>
    exact hf.of_no_call (fun _ => rfl) rfl rfl (by simp only [State.callsLeft, hx]; exact le_rfl) nofun
      (hclean (by simp [hx]))
  case copies hx _ =>
    have hseg := hafter hx
    refine hf.of_call (answer_of_draws (by simp [State.xferRead]) (by simp [State.xferRead])) (by simp [State.xferRead])
      (by simp [State.xferRead]) ?_ nofun (by simpa [State.xferRead] using hclean (by simp [hx]))
    simp only [State.callsLeft, State.xferRead, hx, memRead_cfg, memRead_regs]
    omega
  case issues u hx h2 hm _ =>
    obtain ⟨-, -, -, -, -, -, -, -, -, -, -, hlimit, -⟩ := wf_facts hs.config
    have hseg := hafter hx
    have hregs : callsAfter s.cfg { s.regs with pollCnt := s.cfg.pollLimit } = callsAfter s.cfg s.regs := rfl
    have hans := answer_of_mutates hm
    refine hf.of_call hans (by simp [hm.cfg]) (by simp [hm.regs]) ?_ (fun _ => ?_)
      (by simpa [hm.regs] using hclean (by simp [hx]))
    · simp only [State.callsLeft, hx, startPoll_fsm, startPoll_cfg, startPoll_regs, hm.cfg, hm.regs, hregs]
      omega
    · obtain ⟨j, hj, hset⟩ := hf.finishes h2 1 (by simp only [State.callsLeft, hx]; omega)
      exact ⟨j, by simpa [hm.cfg] using hj, by rw [Nat.add_comm] at hset; exact (hans j).symm ▸ hset⟩
  case issueFails hx _ _ h0 => exact absurd (hsucc (.inr (.inl hx))) h0
  case pollFails hp h0 => exact absurd (hsucc (.inr (.inr hp))) h0
  case completes hp _ _ =>
    obtain ⟨-, hcnt, -⟩ := hs.loop.poll hp
    refine hf.of_call (answer_of_draws (by simp) (by simp)) (by simp) (by simp) ?_ nofun
      (by simpa using hclean (by simp [hp]))
    simp only [State.callsLeft, hp, goto_fsm, goto_cfg, goto_regs, statusGet_cfg, statusGet_regs]
    omega
  case timesOut hp _ hb hcnt =>
    obtain ⟨j, hj, hset⟩ := hf.polls hp
    obtain rfl : j = 0 := by omega
    simp [sampleBusy_eq, hset] at hb
  case pollsAgain hp _ hb hcnt =>
    have hregs : callsAfter s.cfg { s.regs with pollCnt := s.regs.pollCnt - 1 } = callsAfter s.cfg s.regs := rfl
    have hans (k : Nat) : s.statusGet.answer k = s.answer (k + 1) := answer_of_draws (by simp) (by simp) k
    refine hf.of_call hans (by simp) rfl ?_ (fun _ => ?_) (hclean (by simp [hp]))
    · simp only [State.callsLeft, statusGet_fsm, statusGet_cfg, hp, hregs]
      omega
    · obtain ⟨_ | j, hj, hset⟩ := hf.polls hp
      · simp [sampleBusy_eq, hset] at hb
      · exact ⟨j, Nat.lt_sub_of_add_lt hj, (hans j).symm ▸ hset⟩
  case advances ha =>
    refine hf.of_no_call (fun _ => rfl) rfl rfl ?_ (by simp only [State.visitAdv]; split <;> simp)
      (hclean (by simp [ha]))
    by_cases hmore : s.regs.remaining - (advanceStep s.cfg s.regs.op s.regs.cursor s.regs.segLen : Int) > 0
    · simp only [State.callsLeft, State.visitAdv, ha, if_pos hmore]
      exact le_rfl
    · simp only [State.callsLeft, State.visitAdv, if_neg hmore]
      exact Nat.zero_le _
  case responds hr => exact hf.of_no_call (fun _ => rfl) rfl rfl (Nat.zero_le _) nofun (hclean (by simp [hr]))

/-! ### The whole command -/

/-- An operand check that passes (R110, R111). -/
theorem not_rejected {s : State} (hop : s.regs.op = 2 ∨ s.regs.op = 3 ∨ s.regs.op = 4)
    (hbuf : s.regs.op ≠ 4 → s.regs.bufValid = true) (hrange : s.regs.addr + s.regs.len ≤ s.cfg.totalSize) (k : Kind) :
    ¬s.Rejected k := by
  rintro (⟨-, ⟨h23, hno⟩ | h10⟩ | ⟨-, -, hout⟩)
  · have h4 : s.regs.op ≠ 4 := by rcases h23 with e | e <;> simp [e]
    simp [hbuf h4] at hno
  · rcases hop with e | e | e <;> simp [e] at h10
  · omega

/-- What is asked of the oracle for the whole of a command. -/
theorem favoured_accept {m : Nat} {i : Instr} {s : State}
    (hsucc : s.allSucceed (callBound s.cfg (i.load s.regs).len + m))
    (hfin : i.opcode ≠ 2 → s.healthy (callBound s.cfg (i.load s.regs).len + m)) :
    (s.accept (i.load s.regs)).Favoured m where
  succeeds := hsucc
  finishes := fun h2 => hfin (by simpa using h2)
  polls := nofun
  clean := fun h => absurd rfl h

/-- R89: the response of clear latches, but for GET_TYPE, is Ok with no value. -/
theorem response_of_clean {s : State} (hclean : s.regs.stKind = .ok ∧ s.regs.stInfo = 0) (hvalue : s.regs.value = 0)
    (h9 : s.regs.op ≠ 9) : s.response = Response.status .ok 0 := by
  obtain ⟨hkind, hinfo⟩ := hclean
  have hstr : ¬(s.regs.op = 9 ∧ s.regs.stKind = .ok) := fun ⟨e, _⟩ => h9 e
  rw [State.response, if_neg hstr, hkind, hinfo, hvalue]
  rfl

/-- R71, R202: a transfer that passes validation, and whose calls succeed and finish, answers Ok, and leaves the answers
that it was not given. -/
theorem exec_of_favoured {m : Nat} {i : Instr} {s t : State} (hq : s.quiet) (h : exec i s = .next t)
    (hs : (s.accept (i.load s.regs)).Transfers) (hf : (s.accept (i.load s.regs)).Favoured m) :
    t.hr = some (Response.status .ok 0) ∧ t.Favoured m := by
  obtain ⟨-, hr⟩ := hq
  have hend : t.Favoured m := exec_keeps_of_transfer hr h hs hf fun u v hu _ e hP => e.favoured hu hP
  have hc : s.cfg.wf = true := hs.config
  have hserves := exec_serves hc hr h
  have hidle := exec_fsm hc h
  have hop : i.opcode = 2 ∨ i.opcode = 3 ∨ i.opcode = 4 := by simpa using hs.op
  have hvalue := hserves.value (by simp [hidle]) (.inl (by rcases hop with e | e | e <;> simp [e]))
  have h9 : t.regs.op ≠ 9 := by
    rw [hserves.op]
    rcases hop with e | e | e <;> simp [e]
  exact ⟨by rw [exec_hr hc hr h, response_of_clean (hend.clean (by simp [hidle])) hvalue h9], hend⟩

end Sys2Proof.Machine
end

section
/-! Settling the statements of spec/42_read.md, a transfer of length zero (R145, R155, R162). -/

namespace Sys2Proof.Machine

/-- `S_CHECK` of a transfer whose operands pass loads its registers, and ends a transfer of length zero (R112, R145). -/
theorem visitCheck_of_valid {s : State} (hop : s.regs.op = 2 ∨ s.regs.op = 3 ∨ s.regs.op = 4)
    (hbuf : s.regs.op ≠ 4 → s.regs.bufValid = true) (hrange : s.regs.addr + s.regs.len ≤ s.cfg.totalSize) :
    s.visitCheck = { s with regs := s.loadedRegs, fsm := if s.regs.len = 0 then .resp else .xlate } := by
  rcases or_assoc.2 hop with h23 | h4
  · have h4 : s.regs.op ≠ 4 := by rcases h23 with e | e <;> simp [e]
    rw [visitCheck_of_opcode h23, State.loadedRegs, transferStart, if_neg h4, if_neg h4]
    rcases checkBuffer_cases { s with regs := s.regs.clearLatch } with ⟨hno, -⟩ | ⟨-, hout, -⟩ | ⟨-, -, e⟩
    · exact absurd ((hbuf h4).symm.trans hno) nofun
    · exact absurd hrange (Nat.not_le.2 hout)
    · exact e
  · have hcheck : s.visitCheck = { s with regs := s.regs.clearLatch }.checkErase := by simp [State.visitCheck, h4]
    rw [hcheck, State.loadedRegs, transferStart, if_pos h4, if_pos h4]
    rcases checkErase_cases { s with regs := s.regs.clearLatch } with ⟨hout, -⟩ | ⟨-, e⟩
    · exact absurd hrange (Nat.not_le.2 hout)
    · exact e

/-- A command that `S_CHECK` sends to `S_RESP` is answered in the next sequencer step. -/
theorem exec_of_check {i : Instr} {s : State} {r : Regs} (hq : s.quiet) (hb : s.bufferFits i = true)
    (hcheck : (s.accept (i.load s.regs)).visitCheck = (s.accept r).goto .resp) :
    exec i s = .next { s with regs := r, hr := some (s.accept r).response, trace := [] } := by
  obtain ⟨hi, hr⟩ := hq
  have htick : (s.accept (i.load s.regs)).tick = (s.accept r).goto .resp := by
    rw [tick_of_noReset (s := s.accept (i.load s.regs)) hr, State.visit, accept_fsm, hcheck]
  obtain ⟨n, hn⟩ : ∃ n, commandBound i s = n + 1 + 1 := ⟨commandBound i s - 2, by simp [commandBound, tickBound]⟩
  rw [exec_of_idle hb hi, hn, run_succ (by simp), htick, run_of_resp rfl,
    tick_of_noReset (s := (s.accept r).goto .resp) hr, State.visit, goto_fsm, State.respond, ← hi]
  rfl

/-- A transfer of length zero that passes validation is answered after `S_CHECK`. -/
theorem exec_of_length_zero {i : Instr} {s : State} (hq : s.quiet) (hb : s.bufferFits i = true)
    (hop : i.opcode = 2 ∨ i.opcode = 3 ∨ i.opcode = 4) (hbuf : i.opcode ≠ 4 → (i.load s.regs).bufValid = true)
    (hlen : (i.load s.regs).len = 0) (hrange : (i.load s.regs).addr ≤ s.cfg.totalSize) :
    ∃ r, exec i s = .next { s with regs := r, hr := some (Response.status .ok 0), trace := [] } := by
  have hcheck := visitCheck_of_valid (s := s.accept (i.load s.regs)) (by simpa using hop) (by simpa using hbuf)
    (by simpa [hlen] using hrange)
  rw [accept_regs, if_pos hlen] at hcheck
  have h9 : (i.load s.regs).op ≠ 9 := by
    rw [load_op]
    rcases hop with e | e | e <;> simp [e]
  have hresponse := response_of_clean (s := s.accept (s.accept (i.load s.regs)).loadedRegs) ⟨rfl, rfl⟩ rfl h9
  exact ⟨_, hresponse ▸ exec_of_check (r := (s.accept (i.load s.regs)).loadedRegs) hq hb hcheck⟩

/-- R51: a buffer of the request's length is no reason to refuse. -/
theorem bufferTooShort_of_le {s : State} {bv : Bool} {address length : Nat} (h : length ≤ s.hb.length) :
    s.bufferTooShort bv address length = false := by
  rw [← Bool.not_eq_true, bufferTooShort_iff]
  omega

/-- Settles O24: each of the four passes both checks, and no buffer is too short for no byte. -/
theorem zeroLengthTransfersDoNothing : Obligations.ZeroLengthTransfersDoNothing := by
  intro s address i hcmd hq hrange
  have hfits : s.bufferTooShort true address 0 = false := bufferTooShort_of_le (Nat.zero_le _)
  rcases hcmd with rfl | rfl | rfl | rfl
  · exact exec_of_length_zero hq (by simp [State.bufferFits, hfits]) (.inl rfl) (fun _ => rfl) rfl hrange
  · exact exec_of_length_zero hq (by simp [State.bufferFits, hfits]) (.inr (.inl rfl)) (fun _ => rfl) rfl hrange
  · exact exec_of_length_zero hq (by simp [State.bufferFits, hfits]) (.inr (.inl rfl)) (fun _ => rfl) rfl hrange
  · exact exec_of_length_zero hq rfl (.inr (.inr rfl)) (fun h => absurd rfl h) rfl hrange

end Sys2Proof.Machine
end

section
/-! Transfers that pass validation, layer 4: the device under a transfer that started on a ready device, whatever the
oracle answers (R31, R59, R195 to R199). -/

namespace Sys2Proof.Machine

/-- The operation that `S_XFER` of a PROGRAM or an ERASE puts in flight for the segment of the registers (R60, R61). -/
def State.segmentFlight (s : State) : InFlight :=
  if s.regs.op = 3 then .program (segmentStart s.cfg s.regs.op s.regs.cursor) (bufRead s.hb s.regs.bufOff s.regs.segLen)
  else .erase (segmentStart s.cfg s.regs.op s.regs.cursor) s.regs.segLen

/-- A transfer on a device that was ready, with bank `bank` selected, when the command was accepted. -/
structure State.OnDevice (bank : Nat) (s : State) : Prop where
  lifecycle : s.opened = true ∧ s.condition = .configured
  flight    : s.Unfailed → s.inFlight = if s.fsm = .poll then some s.segmentFlight else none
  accepted  : s.fsm = .check → s.activeBank = bank
  selected  : s.fsm = .seg ∨ s.fsm = .xfer ∨ s.fsm = .poll ∨ s.fsm = .adv →
    s.activeBank = translateBank s.cfg (segmentStart s.cfg s.regs.op s.regs.cursor)
  ended     : s.fsm = .resp ∨ s.fsm = .idle → s.regs.stKind = .ok →
    s.activeBank = if s.regs.len = 0 then bank else translateBank s.cfg (s.frontier - 1)

section
variable {bank : Nat} {s t : State}

theorem onDevice_accept {i : Instr} (h : s.ready = true) : (s.accept (i.load s.regs)).OnDevice s.activeBank := by
  obtain ⟨hopened, hcond, hidle⟩ := (ready_iff s).1 h
  exact ⟨⟨hopened, hcond⟩, fun _ => hidle, fun _ => rfl, nofun, nofun⟩

/-- Outside `S_POLL` the device of a running transfer is ready. -/
theorem State.OnDevice.ready (h : s.OnDevice bank) (hs : s.Transfers) (hin : s.fsm.inLoop = true) (hp : s.fsm ≠ .poll) :
    s.ready = true := by
  obtain ⟨hopened, hcond⟩ := h.lifecycle
  obtain ⟨hkind, -⟩ := hs.clean hin
  exact (ready_iff s).2 ⟨hopened, hcond, (h.flight (.inr hkind)).trans (if_neg hp)⟩

/-- Under the segment's bank its physical address is that of its first byte. -/
theorem State.OnDevice.deviceAddress (h : s.OnDevice bank) (hs : s.Transfers)
    (hf : s.fsm = .xfer ∨ s.fsm = .poll) :
    s.deviceAddress s.regs.pa = segmentStart s.cfg s.regs.op s.regs.cursor := by
  rw [hs.loop.pa (by rcases hf with e | e <;> rw [e] <;> rfl)]
  exact deviceAddress_translate (h.selected (by tauto))

/-- An accepted `program` or `erase_block` is in flight with the segment. -/
theorem State.OnDevice.mutates_inFlight {u : State} (h : s.OnDevice bank) (hs : s.Transfers) (hf : s.fsm = .xfer)
    (hm : s.Mutates u) (h0 : s.nextStatus = 0) : u.inFlight = some s.segmentFlight := by
  have hready := h.ready hs (by rw [hf]; rfl) (by simp [hf])
  have hda := h.deviceAddress hs (.inl hf)
  cases hm
  case program h3 => rw [program_of_ready hready h0, hda, State.segmentFlight, if_pos h3]
  case erase h3 => rw [eraseBlock_of_ready hready h0, hda, State.segmentFlight, if_neg h3]

theorem mutates_activeBank {u : State} (hm : s.Mutates u) (hready : s.ready = true) (h0 : s.nextStatus = 0) :
    u.activeBank = s.activeBank := by
  cases hm
  · rw [program_of_ready hready h0]; rfl
  · rw [eraseBlock_of_ready hready h0]; rfl

/-- The segment that ends a transfer lies in the bank that is selected. -/
theorem State.OnDevice.bank_of_adv (h : s.OnDevice bank) (hs : s.Transfers) (hf : s.fsm = .adv) :
    s.activeBank = translateBank s.cfg (s.frontier - 1) := by
  obtain ⟨htr, hm⟩ := transferring_measured_of_adv hf hs.loop
  rw [State.frontier, nextCursor_of_adv hf, segmentStart_add_advanceStep hs.config htr hm,
    translateBank_segment hs.config htr hm]
  exact h.selected (.inr (.inr (.inr hf)))

theorem State.OnDevice.inFlight (h : s.OnDevice bank) (hs : s.Transfers) (hin : s.fsm.inLoop = true)
    (hp : s.fsm ≠ .poll) : s.inFlight = none := by
  obtain ⟨-, -, hidle⟩ := (ready_iff s).1 (h.ready hs hin hp)
  exact hidle

/-- Unless the command has failed, the segment is in flight in `S_POLL` and nothing is in flight elsewhere. -/
theorem State.TransferExit.flight (h : s.TransferExit t) (hs : s.Transfers) (hd : s.OnDevice bank)
    (hok : t.Unfailed) : t.inFlight = if t.fsm = .poll then some t.segmentFlight else none := by
  have hidle (hin : s.fsm.inLoop = true) (hp : s.fsm ≠ .poll) := hd.inFlight hs hin hp
  have hbefore := h.unfailed hs hok
  cases h
  case loads hf =>
    have hp : (if s.regs.len = 0 then Fsm.resp else .xlate) ≠ .poll := by split <;> simp
    exact ((hd.flight (.inl hf)).trans (if_neg (by simp [hf]))).trans (if_neg hp).symm
  case translates hf => exact hidle (by rw [hf]; rfl) (by simp [hf])
  case selects hf _ => exact bankSelect_inFlight_of_idle (hidle (by rw [hf]; rfl) (by simp [hf])) _
  case measures hf => exact hidle (by rw [hf]; rfl) (by simp [hf])
  case copies hf _ => exact memRead_inFlight_of_idle (hidle (by rw [hf]; rfl) (by simp [hf])) s.regs.pa s.regs.segLen
  case issues u hf _ hm h0 =>
    have hseg : u.startPoll.segmentFlight = s.segmentFlight := by
      cases hm <;> simp [State.segmentFlight]
    rw [startPoll_inFlight, startPoll_fsm, if_pos rfl, hseg]
    exact hd.mutates_inFlight hs hf hm h0
  case completes hf _ hb =>
    simpa [State.statusGet, State.sampleBusy, State.busy] using hb
  case pollsAgain hf _ hb _ =>
    obtain ⟨hkind, -⟩ := hs.clean (by rw [hf]; rfl)
    have hflight := hd.flight (.inr hkind)
    have hset : (s.answer 0).settled = false := by
      rw [sampleBusy_eq] at hb
      simp_all
    simpa [State.statusGet, called_inFlight, hset, hf, State.segmentFlight] using hflight
  case advances hf =>
    have hp : s.visitAdv.fsm ≠ .poll := by simp only [State.visitAdv]; split <;> simp
    exact (hidle (by rw [hf]; rfl) (by simp [hf])).trans (if_neg hp).symm
  case responds hf =>
    exact (hd.flight hbefore).trans (by simp [hf])
  all_goals simp [State.Unfailed] at hok

/-- From `bank_select` on the segment's bank is selected. -/
theorem State.TransferExit.selected (h : s.TransferExit t) (hs : s.Transfers) (hd : s.OnDevice bank)
    (hf : t.fsm = .seg ∨ t.fsm = .xfer ∨ t.fsm = .poll ∨ t.fsm = .adv) :
    t.activeBank = translateBank t.cfg (segmentStart t.cfg t.regs.op t.regs.cursor) := by
  cases h
  case loads => by_cases hz : s.regs.len = 0 <;> simp [hz] at hf
  case selects hb h0 =>
    have hready := hd.ready hs (by rw [hb]; rfl) (by simp [hb])
    have hbank : (s.bankSelect s.regs.bank).activeBank = s.regs.bank := by
      rw [bankSelect_of_ready hready, if_pos h0]
    simpa [hbank] using hs.loop.bank (by rw [hb]; rfl)
  case measures hx => exact hd.selected (.inl hx)
  case copies hx _ =>
    have hready := hd.ready hs (by rw [hx]; rfl) (by simp [hx])
    have hbank : (s.memRead s.regs.pa s.regs.segLen).activeBank = s.activeBank := by rw [memRead_of_ready hready]; rfl
    simpa [State.xferRead, hbank] using hd.selected (.inr (.inl hx))
  case issues u hx _ hm h0 =>
    have hready := hd.ready hs (by rw [hx]; rfl) (by simp [hx])
    simpa [hm.cfg, hm.regs, mutates_activeBank hm hready h0] using hd.selected (.inr (.inl hx))
  case completes hx _ _ => simpa using hd.selected (.inr (.inr (.inl hx)))
  case pollsAgain hx _ _ _ => simpa using hd.selected (.inr (.inr (.inl hx)))
  case advances => simp only [State.visitAdv] at hf; split at hf <;> simp at hf
  all_goals simp [State.visitXlate] at hf

/-- A transfer that answers Ok leaves the bank of its last byte selected, and one of length zero selects none. -/
theorem State.TransferExit.bank_of_ended (h : s.TransferExit t) (hs : s.Transfers) (hd : s.OnDevice bank)
    (ht : t.fsm = .resp ∨ t.fsm = .idle) (hok : t.regs.stKind = .ok) :
    t.activeBank = if s.regs.len = 0 then bank else translateBank s.cfg (s.frontier - 1) := by
  cases h
  case loads hf =>
    have hz : s.regs.len = 0 := by
      by_contra hz
      simp [hz] at ht
    exact (hd.accepted hf).trans (if_pos hz).symm
  case advances hf =>
    have hlen := hs.nonempty (by rw [hf]; rfl)
    exact (hd.bank_of_adv hs hf).trans (if_neg (Nat.ne_of_gt hlen)).symm
  case responds hf => exact hd.ended (.inl hf) hok
  all_goals simp_all [State.visitXlate, State.visitSeg, State.xferRead]

/-- Every way out of a transfer's states leaves the device of a ready device's transfer in order. -/
theorem State.TransferExit.onDevice (h : s.TransferExit t) (hs : s.Transfers) (e : s.Exit t) (hd : s.OnDevice bank) :
    t.OnDevice bank := by
  obtain ⟨hopened, hcond⟩ := e.lifecycle_unchanged hs.lifecycle
  refine ⟨by rw [hopened, hcond]; exact hd.lifecycle, h.flight hs hd, fun hc => ?_, h.selected hs hd, fun ht hok => ?_⟩
  · exact absurd hc h.fsm_ne_check
  · have hadv : t.fsm ≠ .adv := by rcases ht with e | e <;> simp [e]
    rw [e.len, e.cfg, h.frontier hs e, if_neg hadv]
    exact h.bank_of_ended hs hd ht hok

/-- What the acceptance of a valid transfer on a ready device establishes, and every way out of its states keeps, holds
of the state the command leaves, whatever the oracle answers. -/
theorem exec_keeps_on_device {P : State → Prop} {i : Instr} (hq : s.quiet) (h : exec i s = .next t)
    (hs : (s.accept (i.load s.regs)).Transfers) (hready : s.ready = true) (hacc : P (s.accept (i.load s.regs)))
    (hexit : ∀ u v : State, u.Transfers → u.Exit v → u.TransferExit v → u.Walks → u.OnDevice s.activeBank → P u → P v) :
    t.Walks ∧ t.OnDevice s.activeBank ∧ P t := by
  obtain ⟨-, hr⟩ := hq
  refine exec_keeps_of_transfer (P := fun u => u.Walks ∧ u.OnDevice s.activeBank ∧ P u) hr h hs
    ⟨walks_accept _ _, onDevice_accept hready, hacc⟩ fun u v hu e ht ⟨hw, hd, hP⟩ => ?_
  exact ⟨ht.walks hu e hw, ht.onDevice hu e hd, hexit u v hu e ht hw hd hP⟩

/-- What a transfer on a ready device leaves when it answers Ok: the device is ready again. -/
theorem State.OnDevice.ready_of_idle (h : t.OnDevice bank) (hf : t.fsm = .idle) (hok : t.regs.stKind = .ok) :
    t.ready = true := by
  obtain ⟨hopened, hcond⟩ := h.lifecycle
  exact (ready_iff t).2 ⟨hopened, hcond, (h.flight (.inr hok)).trans (if_neg (by simp [hf]))⟩

end

/-- What a transfer on a ready device leaves when its calls succeed and finish: an Ok, the block idle and the device
ready for the next command, the segments up to the end of the request complete. -/
structure State.Finishes (i : Instr) (m : Nat) (s t : State) : Prop where
  hr       : t.hr = some (Response.status .ok 0)
  ok       : t.regs.stKind = .ok
  quiet    : t.quiet
  ready    : t.ready = true
  cfg      : t.cfg = s.cfg
  succeeds : t.allSucceed m
  finishes : i.opcode ≠ 2 → t.healthy m
  addr     : t.regs.addr = (i.load s.regs).addr
  len      : t.regs.len = (i.load s.regs).len
  frontier : t.frontier = transferEnd s.cfg i.opcode (i.load s.regs).addr (i.load s.regs).len

/-- R71, R202: every transfer that passes validation on a ready device ends so, once its calls succeed and finish. -/
theorem exec_finishes {m : Nat} {i : Instr} {s t : State} (hq : s.quiet) (h : exec i s = .next t)
    (hs : (s.accept (i.load s.regs)).Transfers) (hready : s.ready = true)
    (hf : (s.accept (i.load s.regs)).Favoured m) : s.Finishes i m t := by
  have hc : s.cfg.wf = true := hs.config
  obtain ⟨hr, hend⟩ := exec_of_favoured hq h hs hf
  obtain ⟨hw, hd, -⟩ := exec_keeps_on_device (P := fun _ => True) hq h hs hready trivial fun _ _ _ _ _ _ _ _ => trivial
  obtain ⟨⟨hop, -, haddr, hlen⟩, -⟩ := commandsChangeOnlyTheirRegisters i s t hq.2 h
  have hidle := exec_fsm hc h
  obtain ⟨hok, -⟩ := hend.clean (by simp [hidle])
  obtain ⟨hsucc, hfin⟩ := hend.rest
  have hfront := hw.ended (.inr hidle) hok
  rw [hop, haddr, hlen, exec_cfg h] at hfront
  exact ⟨hr, hok, ⟨hidle, exec_resets_of_nil hq.2 h⟩, hd.ready_of_idle hidle hok, exec_cfg h, hsucc, hop ▸ hfin, haddr,
    hlen, hfront⟩

end Sys2Proof.Machine
end

section
/-! Settling the statements of spec/42_read.md, READ: what its segments put in the buffer (R140, R146), and what it leaves
alone, whatever the oracle answers (R140). -/

namespace Sys2Proof.Machine

/-! ### The buffer (R51) -/

theorem readRange_append (m : Memory) (a n k : Nat) :
    m.readRange a n ++ m.readRange (a + n) k = m.readRange a (n + k) := by
  simp [Memory.readRange, List.range_add, Nat.add_assoc]

/-- A buffer whose first bytes are replaced has the next ones replaced by a write behind them. -/
theorem bufWrite_append (front hb bs : List Byte) :
    bufWrite (front ++ hb.drop front.length) front.length bs = front ++ bs ++ hb.drop (front.length + bs.length) := by
  simp [bufWrite, List.drop_append, List.drop_drop]

/-- The buffer `hb` with the flash bytes from `a` on up to `e` in its first bytes. -/
def copiedBuffer (m : Memory) (hb : List Byte) (a e : Nat) : List Byte := m.readRange a (e - a) ++ hb.drop (e - a)

theorem copiedBuffer_self (m : Memory) (hb : List Byte) (a : Nat) : copiedBuffer m hb a a = hb := by
  simp [copiedBuffer, Memory.readRange]

theorem bufWrite_copiedBuffer (m : Memory) (hb : List Byte) {a e : Nat} (h : a ≤ e) (n : Nat) :
    bufWrite (copiedBuffer m hb a e) (e - a) (m.readRange e n) = copiedBuffer m hb a (e + n) := by
  have key := bufWrite_append (m.readRange a (e - a)) hb (m.readRange e n)
  have hnext : m.readRange a (e - a) ++ m.readRange e n = m.readRange a (e + n - a) := by
    have := readRange_append m a (e - a) n
    rwa [Nat.add_sub_cancel' h, ← Nat.sub_add_comm h] at this
  rw [Memory.length_readRange, Memory.length_readRange, hnext, ← Nat.sub_add_comm h] at key
  exact key

/-- Copying the request or less of it changes no byte past the request. -/
theorem copiedBuffer_within (m : Memory) {hb : List Byte} {a e n : Nat} (he : e ≤ a + n) (hn : n ≤ hb.length) :
    (copiedBuffer m hb a e).length = hb.length ∧ (copiedBuffer m hb a e).drop n = hb.drop n := by
  have hle : e - a ≤ n := by omega
  constructor
  · simp [copiedBuffer]
    omega
  · rw [copiedBuffer, List.drop_append, List.drop_eq_nil_of_le (by simpa using hle), List.drop_drop,
      Memory.length_readRange, Nat.add_sub_cancel' hle, List.nil_append]

/-! ### READ on a ready device -/

/-- What a READ of a ready device keeps, and what it has copied: the flash bytes up to the frontier. -/
structure State.Copies (s u : State) : Prop where
  op       : u.regs.op = 2
  flash    : u.flash = s.flash
  devError : u.devError = s.devError
  hb       : u.hb = copiedBuffer s.flash s.hb u.regs.addr u.frontier

theorem copies_accept {i : Instr} {s : State} (h2 : i.opcode = 2) : s.Copies (s.accept (i.load s.regs)) where
  op := by simpa using h2
  flash := rfl
  devError := rfl
  hb := by
    have hop : (s.accept (i.load s.regs)).regs.op ≠ 4 := by simp [h2]
    have hfront : (s.accept (i.load s.regs)).nextCursor = (i.load s.regs).addr := if_neg hop
    rw [frontier_of_ne hop, hfront]
    exact (copiedBuffer_self _ _ _).symm

/-- The buffer offset of a READ or a PROGRAM follows its cursor (R140, R150). -/
theorem State.Walks.cursor {s : State} (h : s.Walks) (hs : s.Transfers) (hin : s.fsm.inLoop = true)
    (h4 : s.regs.op ≠ 4) :
    s.regs.cursor = s.regs.addr + s.regs.bufOff := by
  have htotal := h.total hin
  have hbuf := hs.loop.buffer hin h4
  rw [transferStart, if_neg h4] at htotal
  omega

/-- The window shows the segment's flash bytes (R62, R199). -/
theorem windowBytes_segment {bank : Nat} {s : State} (hs : s.Transfers) (hd : s.OnDevice bank) (hf : s.fsm = .xfer)
    (h2 : s.regs.op = 2) :
    s.windowBytes s.regs.pa s.regs.segLen = s.flash.readRange s.regs.cursor s.regs.segLen := by
  have hda := hd.deviceAddress hs (.inl hf)
  rw [segmentStart_of_ne (by simp [h2])] at hda
  have htr := transferring_of_inLoop hs.loop (by rw [hf]; rfl)
  have hrange := htr.range
  have hleft := htr.left
  have hseg := segmentLength_le_remaining (c := s.cfg) (.inl h2) s.regs.cursor s.regs.remaining
  rw [← hs.loop.length (by rw [hf]; rfl)] at hseg
  rw [windowBytes_of_ready (hd.ready hs (by rw [hf]; rfl) (by simp [hf])), hda]
  rw [hda]
  omega

theorem State.TransferExit.copies_of_read {bank : Nat} {s u v : State} (h : u.TransferExit v) (hu : u.Transfers)
    (e : u.Exit v) (hw : u.Walks) (hd : u.OnDevice bank) (hc : s.Copies u) : s.Copies v := by
  obtain ⟨h2, hflash, herr, hhb⟩ := hc
  have h4 : u.regs.op ≠ 4 := by simp [h2]
  have hfront := h.frontier hu e
  have hop := e.op.trans h2
  have haddr := e.addr
  have hkept (hadv : v.fsm ≠ .adv) (hf : v.flash = u.flash) (he : v.devError = u.devError) (hb : v.hb = u.hb) :
      s.Copies v := by
    refine ⟨hop, hf.trans hflash, he.trans herr, ?_⟩
    rw [hb, hhb, haddr, hfront, if_neg hadv]
  have hselect (hb : u.fsm = .bank) : (u.bankSelect u.regs.bank).flash = u.flash := by
    rw [bankSelect_of_ready (hd.ready hu (by rw [hb]; rfl) (by simp [hb]))]
    rfl
  cases h
  case loads => exact hkept (by simp only; split <;> simp) rfl rfl rfl
  case translates => exact hkept nofun rfl rfl rfl
  case selects hb _ => exact hkept nofun (by simpa using hselect hb) (by simp) (by simp)
  case selectFails hb _ => exact hkept nofun (by simpa using hselect hb) (by simp) (by simp)
  case measures => exact hkept nofun rfl rfl rfl
  case copies hx _ =>
    have hready := hd.ready hu (by rw [hx]; rfl) (by simp [hx])
    have hcur := hw.cursor hu (by rw [hx]; rfl) h4
    have hat : u.frontier = u.regs.cursor := by
      rw [frontier_of_ne h4, nextCursor_of_cursor (by simp [hx]) (by simp [hx])]
    have hoff : u.regs.bufOff = u.regs.cursor - u.regs.addr := by omega
    refine ⟨hop, ?_, by simpa [State.xferRead] using herr, ?_⟩
    · simpa [State.xferRead, memRead_of_ready hready] using hflash
    · have hbytes := windowBytes_segment hu hd hx h2
      have hnext := bufWrite_copiedBuffer s.flash s.hb (Nat.le.intro hcur.symm) u.regs.segLen
      rw [hat] at hhb hfront
      rw [haddr, hfront]
      simp only [State.xferRead, if_true]
      rw [hbytes, hflash, hhb, hoff]
      exact hnext
  case issues h2' _ _ | issueFails h2' _ _ => exact absurd h2 h2'
  case advances => exact hkept (by simp only [State.visitAdv]; split <;> simp) rfl rfl rfl
  case responds => exact hkept nofun rfl rfl rfl
  case pollFails hp _ | completes hp _ _ | timesOut hp _ _ _ | pollsAgain hp _ _ _ =>
    exact absurd h2 (hu.loop.poll hp).1

/-- What a READ of a ready device ends with, whatever the oracle answers. -/
theorem exec_copies {i : Instr} {s t : State} (h2 : i.opcode = 2) (hq : s.quiet) (h : exec i s = .next t)
    (hs : (s.accept (i.load s.regs)).Transfers) (hready : s.ready = true) :
    t.Walks ∧ t.OnDevice s.activeBank ∧ s.Copies t :=
  exec_keeps_on_device hq h hs hready (copies_accept h2) fun _ _ hu e ht hw hd hc => ht.copies_of_read hu e hw hd hc

/-- A READ with a buffer and inside the device passes validation. -/
theorem transfers_read {s : State} {address length : Nat} (hc : s.cfg.wf = true)
    (hrange : address + length ≤ s.cfg.totalSize) :
    (s.accept ((Instr.read true address length).load s.regs)).Transfers :=
  transfers_accept hc (.inl rfl) (not_rejected (.inl rfl) (fun _ => rfl) hrange)

theorem exec_read_operands {s t : State} {bv : Bool} {address length : Nat} (hr : s.resets = [])
    (h : exec (.read bv address length) s = .next t) : t.regs.addr = address ∧ t.regs.len = length := by
  obtain ⟨⟨-, -, haddr, hlength⟩, -⟩ := commandsChangeOnlyTheirRegisters _ s t hr h
  exact ⟨haddr, hlength⟩

/-- R51: a READ inside the device that runs has a buffer of its length. -/
theorem length_le_of_exec_read {s t : State} {address length : Nat} (hrange : address + length ≤ s.cfg.totalSize)
    (h : exec (.read true address length) s = .next t) : length ≤ s.hb.length := by
  obtain ⟨hfits, -⟩ := exec_next h
  by_contra hshort
  have : s.bufferTooShort true address length = true := (bufferTooShort_iff ..).2 ⟨rfl, hrange, Nat.not_le.1 hshort⟩
  simp [State.bufferFits, this] at hfits

/-- Settles O26: the READ answers Ok, and its frontier is the end of the request. -/
theorem readCopiesTheFlashIntoTheBuffer : Obligations.ReadCopiesTheFlashIntoTheBuffer := by
  intro s address length hc hq hready hsucc hrange hlen
  have hfits : s.bufferFits (.read true address length) = true := by
    simp [State.bufferFits, bufferTooShort_of_le hlen]
  obtain ⟨t, h⟩ : ∃ t, exec (.read true address length) s = .next t := ⟨_, exec_of_idle hfits hq.1⟩
  have hs := transfers_read hc hrange
  have hfin := exec_finishes (m := 0) hq h hs hready (favoured_accept hsucc nofun)
  obtain ⟨-, hd, -, hflash, herr, hhb⟩ := exec_copies rfl hq h hs hready
  obtain ⟨hopened, hcond⟩ := onlyOpenAndCloseChangeTheLifecycle _ s t hq.2 (by simp [Instr.opcode])
    (by simp [Instr.opcode]) h
  obtain ⟨hidle, hresets⟩ := hfin.quiet
  obtain ⟨-, -, hflight⟩ := (ready_iff t).1 hfin.ready
  have haddr : t.regs.addr = address := hfin.addr
  have hlength : t.regs.len = length := hfin.len
  have hfront : t.frontier = address + length := hfin.frontier
  have hbank := hd.ended (.inr hidle) hfin.ok
  rw [hlength, hfront, hfin.cfg] at hbank
  rw [haddr, hfront, copiedBuffer, Nat.add_sub_cancel_left] at hhb
  exact ⟨t, h, hfin.hr, hhb, hflash, hbank, hidle, hopened, hflight, hcond, herr, exec_hc h, hfin.cfg, hresets⟩

/-- Settles O29: a READ that is rejected changes nothing, and any other has copied no more than the request. -/
theorem readFrame : Obligations.ReadFrame := by
  intro s t bv address length hc hq hready h
  obtain ⟨hopened, hcond⟩ := onlyOpenAndCloseChangeTheLifecycle _ s t hq.2 (by simp [Instr.opcode])
    (by simp [Instr.opcode]) h
  have hflight : t.inFlight = none :=
    exec_inFlight_of_idle ((ready_iff s).1 hready).2.2 (by simp [Instr.opcode]) (by simp [Instr.opcode]) h
  suffices hkept : t.flash = s.flash ∧ t.devError = s.devError ∧ t.hb.length = s.hb.length ∧
      t.hb.drop length = s.hb.drop length by
    obtain ⟨hflash, herr, hlength, hdrop⟩ := hkept
    exact ⟨hflash, hflight, hopened, hcond, herr, hlength, hdrop, exec_hc h, exec_cfg h, exec_resets_of_nil hq.2 h,
      exec_fsm hc h⟩
  obtain ⟨hno, hout⟩ := failedValidationChangesNothing s bv address length _ (.inl rfl) hq
  by_cases hbv : bv = true
  · by_cases hrange : address + length ≤ s.cfg.totalSize
    · subst hbv
      obtain ⟨hw, -, hop, hflash, herr, hhb⟩ := exec_copies rfl hq h (transfers_read hc hrange) hready
      obtain ⟨haddr, hlength⟩ := exec_read_operands hq.2 h
      have hupto : t.frontier ≤ address + length := by
        have h4 : t.regs.op ≠ 4 := by simp [hop]
        have := hw.upto h4
        rwa [haddr, hlength, ← frontier_of_ne h4] at this
      rw [hhb, haddr]
      exact ⟨hflash, herr, copiedBuffer_within _ hupto (length_le_of_exec_read hrange h)⟩
    · obtain ⟨r, e⟩ := hout hbv (Nat.not_le.1 hrange)
      obtain rfl := Host.Outcome.next.inj (e.symm.trans h)
      exact ⟨rfl, rfl, rfl, rfl⟩
  · obtain ⟨r, e⟩ := hno (by simpa using hbv)
    obtain rfl := Host.Outcome.next.inj (e.symm.trans h)
    exact ⟨rfl, rfl, rfl, rfl⟩

end Sys2Proof.Machine
end

section
/-! Settling the statements of spec/42_read.md, READ: its trace is one `bank_select` and one window read for each bank
it touches (R141, R143), and a failed `bank_select` ends it after the segments before (R144). -/

namespace Sys2Proof.Machine

/-! ### The trace of a READ's complete segments -/

/-- R140: the trace of the segments of a READ of `[a, fin)` that are complete up to `e`: each is cut at the end of its
bank or of the request. -/
inductive ReadTrace (c : Config) (a fin : Nat) : Nat → List Prim → Prop
  | nil : ReadTrace c a fin a []
  | segment {e n : Nat} {tr : List Prim} (bytes : List Byte) : ReadTrace c a fin e tr → e < fin →
      n = min (fin - e) (remainWindow c e) →
      ReadTrace c a fin (e + n) (tr ++ [.bankSelect (translateBank c e) 0, .memRead (translatePa c e) n bytes])

section
variable {c : Config} {a fin e : Nat} {tr : List Prim}

theorem ReadTrace.start_le (h : ReadTrace c a fin e tr) : a ≤ e := by
  induction h with
  | nil => exact le_rfl
  | segment _ _ _ _ ih => exact Nat.le_add_right_of_le ih

/-- R121: a segment starts at the start of the request or of a bank. -/
theorem ReadTrace.cut (hw : 0 < c.window) (h : ReadTrace c a fin e tr) (he : e < fin) : e = a ∨ e % c.window = 0 := by
  cases h with
  | nil => exact .inl rfl
  | @segment e n _ _ _ _ hn =>
    have hfull : n = c.window - e % c.window := by
      unfold remainWindow at hn
      omega
    rw [hfull]
    exact .inr (add_granule_rest_mod hw e)

theorem ReadTrace.code (h : ReadTrace c a fin e tr) : ∀ p ∈ tr, p.code = 0 := by
  induction h with
  | nil => nofun
  | segment _ _ _ _ ih => simpa [or_imp, forall_and, Prim.code] using ih

/-- R141: one window read for each `bank_select`, and no other entry. -/
theorem ReadTrace.counts (h : ReadTrace c a fin e tr) :
    countMemReads tr = countBankSelects tr ∧ tr.length = 2 * countBankSelects tr := by
  induction h with
  | nil => exact ⟨rfl, rfl⟩
  | segment _ _ _ _ ih =>
    simp only [countMemReads, countBankSelects, List.countP_append, List.length_append] at ih ⊢
    simp
    omega

/-- A boundary past `a` is the first byte of a later bank than that of `a`. -/
theorem div_of_boundary {w a e : Nat} (hw : 0 < w) (hcut : e % w = 0) (hlt : a < e) :
    (e - 1) / w + 1 = e / w ∧ a / w < e / w := by
  have hdm := Nat.div_mul_cancel (Nat.dvd_of_mod_eq_zero hcut)
  have hpos : 0 < e / w := Nat.div_pos (Nat.le_of_dvd (Nat.zero_lt_of_lt hlt) (Nat.dvd_of_mod_eq_zero hcut)) hw
  have hpred : (e - 1) / w = e / w - 1 := by
    rw [Nat.div_eq_iff hw, Nat.sub_mul]
    omega
  exact ⟨by omega, (Nat.div_lt_iff_lt_mul hw).2 (by omega)⟩

theorem ReadTrace.eq_nil (hc : c.wf = true) (h : ReadTrace c a fin a tr) : tr = [] := by
  generalize hend : a = e at h
  cases h with
  | nil => rfl
  | @segment e n _ _ hpre he hn =>
    have hstart := hpre.start_le
    have hrem := remainWindow_pos hc e
    omega

/-- R141: one segment for each bank touched. -/
theorem ReadTrace.banks (hc : c.wf = true) (h : ReadTrace c a fin e tr) (hlt : a < e) :
    countBankSelects tr = (e - 1) / c.window - a / c.window + 1 := by
  obtain ⟨hw, -⟩ := wf_facts hc
  induction h with
  | nil => omega
  | @segment e n tr bytes hpre he hn ih =>
    have hlast : (e + n - 1) / c.window = e / c.window := by
      have hrem := remainWindow_pos hc e
      have hdm := Nat.div_add_mod' e c.window
      unfold remainWindow at hn hrem
      rw [Nat.div_eq_iff hw]
      omega
    have hcount : countBankSelects (tr ++ [.bankSelect (translateBank c e) 0, .memRead (translatePa c e) n bytes]) =
        countBankSelects tr + 1 := by simp [countBankSelects]
    rw [hlast, hcount]
    obtain rfl | hlt' := hpre.start_le.eq_or_lt
    · rw [hpre.eq_nil hc, Nat.sub_self]
      rfl
    · have hcut : e % c.window = 0 := (hpre.cut hw he).resolve_left (Nat.ne_of_gt hlt')
      have hnext := div_of_boundary hw hcut hlt'
      rw [ih hlt']
      omega

/-- R141: inside one bank the trace is one `bank_select` and one window read, in this order. -/
theorem ReadTrace.single (hc : c.wf = true) (h : ReadTrace c a fin fin tr) (hlt : a < fin)
    (hbank : (fin - 1) / c.window = a / c.window) :
    ∃ bytes, tr = [.bankSelect (translateBank c a) 0, .memRead (translatePa c a) (fin - a) bytes] := by
  obtain ⟨hw, -⟩ := wf_facts hc
  generalize hend : fin = e at h
  cases h with
  | nil => omega
  | @segment e n _ bytes hpre he hn =>
    obtain rfl : e = a := by
      refine (hpre.cut hw he).elim id fun hcut => hpre.start_le.eq_or_lt.elim Eq.symm fun hlt' => ?_
      have hnext := div_of_boundary hw hcut hlt'
      have hle : e / c.window ≤ (fin - 1) / c.window := Nat.div_le_div_right (by omega)
      omega
    exact ⟨bytes, by rw [hpre.eq_nil hc, Nat.add_sub_cancel_left]; rfl⟩

end

/-! ### The trace along a READ -/

/-- The `bank_select` of a segment that is not complete: in progress, or failed. -/
def State.pendingSelect (s : State) : List Prim :=
  if s.fsm = .seg ∨ s.fsm = .xfer ∨ (s.fsm = .resp ∨ s.fsm = .idle) ∧ s.regs.stKind ≠ .ok then
    [.bankSelect (translateBank s.cfg s.frontier) s.regs.stInfo]
  else []

theorem pendingSelect_eq_nil {s : State} (hf : s.fsm ≠ .seg) (hf' : s.fsm ≠ .xfer)
    (hok : s.fsm = .resp ∨ s.fsm = .idle → s.regs.stKind = .ok) : s.pendingSelect = [] :=
  if_neg fun h => h.elim hf fun h => h.elim hf' fun ⟨ht, hk⟩ => hk (hok ht)

theorem pendingSelect_of_segment {s : State} (hf : s.fsm = .seg ∨ s.fsm = .xfer) (hinfo : s.regs.stInfo = 0) :
    s.pendingSelect = [.bankSelect (translateBank s.cfg s.frontier) 0] := by
  rw [State.pendingSelect, if_pos (by tauto), hinfo]

/-- What the trace of a READ holds, whatever the device and the oracle: its complete segments, and the `bank_select` of
the segment that is not; a READ that has failed has failed in that call. -/
structure State.ReadsInOrder (s : State) : Prop where
  op     : s.regs.op = 2
  trace  : ∃ tr, ReadTrace s.cfg s.regs.addr (s.regs.addr + s.regs.len) s.frontier tr ∧ s.trace = tr ++ s.pendingSelect
  failed : s.fsm = .resp ∨ s.fsm = .idle → s.regs.stKind ≠ .ok →
    s.regs.stKind = .deviceError ∧ s.regs.stInfo ≠ 0 ∧ s.frontier < s.regs.addr + s.regs.len

theorem readsInOrder_accept {i : Instr} {s : State} (h2 : i.opcode = 2) :
    (s.accept (i.load s.regs)).ReadsInOrder where
  op := by simpa using h2
  trace := by
    have hop : (s.accept (i.load s.regs)).regs.op ≠ 4 := by simp [h2]
    have hfront : (s.accept (i.load s.regs)).nextCursor = (i.load s.regs).addr := if_neg hop
    rw [frontier_of_ne hop, hfront]
    exact ⟨[], .nil, rfl⟩
  failed := nofun

section
variable {s t : State}

/-- A visit that leaves the frontier alone and logs what it adds to the pending call keeps the trace in order. -/
theorem State.ReadsInOrder.of_pending (h : s.ReadsInOrder) (e : s.Exit t) (hfront : t.frontier = s.frontier)
    {added : List Prim} (htrace : t.trace = s.trace ++ added) (hpend : t.pendingSelect = s.pendingSelect ++ added)
    (hfailed : t.fsm = .resp ∨ t.fsm = .idle → t.regs.stKind ≠ .ok →
      t.regs.stKind = .deviceError ∧ t.regs.stInfo ≠ 0 ∧ s.frontier < s.regs.addr + s.regs.len) : t.ReadsInOrder where
  op := e.op.trans h.op
  trace := by
    obtain ⟨tr, htr, hs⟩ := h.trace
    rw [e.cfg, e.addr, e.len, hfront, htrace, hpend, hs, List.append_assoc]
    exact ⟨tr, htr, rfl⟩
  failed := by
    rw [e.addr, e.len, hfront]
    exact hfailed

/-- The window read of `S_XFER` completes a segment. -/
theorem State.ReadsInOrder.copies (h : s.ReadsInOrder) (hs : s.Transfers) (hw : s.Walks) (e : s.Exit s.xferRead)
    (hx : s.fsm = .xfer) (hfront : s.xferRead.frontier = s.frontier + s.regs.segLen)
    (hcur : s.frontier = s.regs.cursor) :
    s.xferRead.ReadsInOrder where
  op := e.op.trans h.op
  trace := by
    obtain ⟨tr, htr, htrace⟩ := h.trace
    have hin : s.fsm.inLoop = true := by rw [hx]; rfl
    obtain ⟨-, hinfo⟩ := hs.clean hin
    have hleft := (transferring_of_inLoop hs.loop hin).left
    have htotal := hw.total hin
    have hlen : s.regs.segLen = min s.regs.remaining.toNat (remainWindow s.cfg s.regs.cursor) := by
      rw [hs.loop.length (by rw [hx]; rfl), h.op]
      rfl
    have hpa : s.regs.pa = translatePa s.cfg s.regs.cursor := by
      rw [hs.loop.pa (by rw [hx]; rfl), segmentStart_of_ne (by simp [h.op])]
    rw [transferStart, if_neg (by simp [h.op])] at htotal
    rw [hcur] at htr
    have hnext := htr.segment (n := s.regs.segLen) (s.windowBytes s.regs.pa s.regs.segLen) (by omega)
      (by rw [hlen]; congr 1; omega)
    refine ⟨_, by rw [e.cfg, e.addr, e.len, hfront, hcur]; exact hnext, ?_⟩
    rw [pendingSelect_eq_nil (by simp [State.xferRead]) (by simp [State.xferRead]) (by simp [State.xferRead])]
    simp [State.xferRead, htrace, pendingSelect_of_segment (.inr hx) hinfo, hcur, hpa]
  failed := fun ht => by simp [State.xferRead] at ht

theorem State.TransferExit.readsInOrder (h : s.TransferExit t) (hs : s.Transfers) (e : s.Exit t) (hw : s.Walks)
    (hr : s.ReadsInOrder) : t.ReadsInOrder := by
  have h2 := hr.op
  have hfront := h.frontier hs e
  have hnone (hx : s.fsm = .check ∨ s.fsm = .xlate ∨ s.fsm = .bank ∨ s.fsm = .adv) : s.pendingSelect = [] := by
    refine pendingSelect_eq_nil ?_ ?_ ?_ <;> rcases hx with hx | hx | hx | hx <;> simp [hx]
  have hcur (hc : s.fsm ≠ .check) (ha : s.fsm ≠ .adv) : s.frontier = s.regs.cursor := by
    rw [frontier_of_cursor hc ha, segmentStart_of_ne (by simp [h2])]
  have hbank (hb : s.fsm = .bank) : s.regs.bank = translateBank s.cfg s.frontier := by
    rw [hs.loop.bank (by rw [hb]; rfl), segmentStart_of_ne (by simp [h2]), hcur (by simp [hb]) (by simp [hb])]
  cases h
  case loads hx =>
    refine hr.of_pending e (by rw [hfront, if_neg]; simp only; split <;> simp) (added := []) (by simp) ?_ nofun
    rw [hnone (.inl hx)]
    exact pendingSelect_eq_nil (by simp only; split <;> simp) (by simp only; split <;> simp) fun _ => rfl
  case translates hx =>
    refine hr.of_pending e hfront (added := []) (by simp [State.visitXlate]) ?_ nofun
    rw [hnone (.inr (.inl hx))]
    exact pendingSelect_eq_nil nofun nofun nofun
  case selects hb h0 =>
    obtain ⟨-, hinfo⟩ := hs.clean (by rw [hb]; rfl)
    refine hr.of_pending e hfront (added := [.bankSelect s.regs.bank s.nextStatus]) (by simp) ?_ nofun
    rw [hnone (.inr (.inr (.inl hb))), pendingSelect_of_segment (.inl rfl) (by simpa using hinfo), hfront, e.cfg, h0,
      hbank hb]
    rfl
  case selectFails hb h0 =>
    have hin : s.fsm.inLoop = true := by rw [hb]; rfl
    have hleft := (transferring_of_inLoop hs.loop hin).left
    have htotal := hw.total hin
    rw [transferStart, if_neg (by simp [h2])] at htotal
    refine hr.of_pending e hfront (added := [.bankSelect s.regs.bank s.nextStatus]) (by simp) ?_
      fun _ _ => ⟨rfl, h0, by rw [hcur (by simp [hb]) (by simp [hb])]; omega⟩
    rw [hnone (.inr (.inr (.inl hb))), State.pendingSelect, if_pos (by simp), hfront, e.cfg, hbank hb]
    rfl
  case measures hx =>
    obtain ⟨-, hinfo⟩ := hs.clean (by rw [hx]; rfl)
    refine hr.of_pending e hfront (added := []) (by simp [State.visitSeg]) ?_ nofun
    rw [pendingSelect_of_segment (.inl hx) hinfo, pendingSelect_of_segment (s := s.visitSeg) (.inr rfl) hinfo, hfront,
      e.cfg]
    rfl
  case copies hx _ => exact hr.copies hs hw e hx hfront (hcur (by simp [hx]) (by simp [hx]))
  case advances hx =>
    obtain ⟨hok, -⟩ := hs.clean (by rw [hx]; rfl)
    have hout : s.visitAdv.fsm = .xlate ∨ s.visitAdv.fsm = .resp := by
      simp only [State.visitAdv]
      split <;> simp
    refine hr.of_pending e (by rw [hfront, if_neg]; rcases hout with e | e <;> simp [e]) (added := [])
      (by simp [State.visitAdv]) ?_ fun _ hk => absurd hok hk
    rw [hnone (.inr (.inr (.inr hx)))]
    exact pendingSelect_eq_nil (by rcases hout with e | e <;> simp [e]) (by rcases hout with e | e <;> simp [e])
      fun _ => hok
  case responds hx =>
    refine hr.of_pending e hfront (added := []) (by simp) ?_ fun _ => hr.failed (.inl hx)
    simp only [State.pendingSelect, respond_fsm, respond_regs, respond_cfg, hx, hfront]
    simp
  case issues h2' _ _ | issueFails h2' _ _ => exact absurd h2 h2'
  case pollFails hp _ | completes hp _ _ | timesOut hp _ _ _ | pollsAgain hp _ _ _ =>
    exact absurd h2 (hs.loop.poll hp).1

end

/-- What a READ that passes validation ends with, whatever the device and the oracle. -/
theorem exec_readsInOrder {i : Instr} {s t : State} (h2 : i.opcode = 2) (hr : s.resets = []) (h : exec i s = .next t)
    (hs : (s.accept (i.load s.regs)).Transfers) : t.Walks ∧ t.ReadsInOrder :=
  exec_keeps_of_transfer (P := fun u => u.Walks ∧ u.ReadsInOrder) hr h hs ⟨walks_accept _ _, readsInOrder_accept h2⟩
    fun _ _ hu e ht ⟨hw, ho⟩ => ⟨ht.walks hu e hw, ht.readsInOrder hu e hw ho⟩

/-- Settles O27: a READ that answers Ok has completed its segments up to the end of the request. -/
theorem readHasOneSegmentPerBank : Obligations.ReadHasOneSegmentPerBank := by
  intro s address length hc hq hsucc hpos hrange hlen
  have hfits : s.bufferFits (.read true address length) = true := by
    simp [State.bufferFits, bufferTooShort_of_le hlen]
  obtain ⟨t, h⟩ : ∃ t, exec (.read true address length) s = .next t := ⟨_, exec_of_idle hfits hq.1⟩
  have hs := transfers_read hc hrange
  obtain ⟨-, hend⟩ := exec_of_favoured (m := 0) hq h hs (favoured_accept hsucc nofun)
  obtain ⟨hw, hop, ⟨tr, htr, htrace⟩, -⟩ := exec_readsInOrder rfl hq.2 h hs
  obtain ⟨haddr, hlength⟩ := exec_read_operands hq.2 h
  have hidle := exec_fsm hc h
  obtain ⟨hok, -⟩ := hend.clean (by simp [hidle])
  rw [pendingSelect_eq_nil (by simp [hidle]) (by simp [hidle]) fun _ => hok, List.append_nil] at htrace
  rw [hw.ended (.inr hidle) hok, transferEnd, if_neg (by simp [hop]), haddr, hlength, exec_cfg h, ← htrace] at htr
  have hbanks := htr.banks hc (by omega)
  obtain ⟨hreads, htwo⟩ := htr.counts
  refine ⟨t, h, hbanks, hreads, htwo, fun hbank => ?_⟩
  obtain ⟨bytes, e⟩ := htr.single hc (by omega) hbank
  rw [Nat.add_sub_cancel_left] at e
  exact ⟨bytes, e⟩

/-- Settles O28: the failed call is the one the trace ends with, and the segments before it are those copied. -/
theorem failedReadLeavesAPrefixOfSegments : Obligations.FailedReadLeavesAPrefixOfSegments := by
  intro s t address length bank st hc hq hready h hmem hst
  have hrange : address + length ≤ s.cfg.totalSize := by
    obtain ⟨-, hout⟩ := failedValidationChangesNothing s true address length _ (.inl rfl) hq
    by_contra hno
    obtain ⟨r, e⟩ := hout rfl (Nat.not_le.1 hno)
    obtain rfl := Host.Outcome.next.inj (e.symm.trans h)
    simp at hmem
  obtain ⟨-, ho⟩ := exec_readsInOrder rfl hq.2 h (transfers_read hc hrange)
  obtain ⟨-, -, -, hflash, -, hhb⟩ := exec_copies rfl hq h (transfers_read hc hrange) hready
  obtain ⟨haddr, hlength⟩ := exec_read_operands hq.2 h
  have hidle := exec_fsm hc h
  obtain ⟨tr, htr, htrace⟩ := ho.trace
  have hlast : .bankSelect bank st ∈ t.pendingSelect := by
    rw [htrace, List.mem_append] at hmem
    exact hmem.resolve_left fun hin => hst (htr.code _ hin)
  have hk : t.regs.stKind ≠ .ok := fun hok => by
    rw [pendingSelect_eq_nil (by simp [hidle]) (by simp [hidle]) fun _ => hok] at hlast
    simp at hlast
  obtain ⟨hkind, -, hlt⟩ := ho.failed (.inr hidle) hk
  rw [State.pendingSelect, if_pos (by simp [hidle, hk])] at hlast htrace
  obtain ⟨rfl, rfl⟩ : bank = translateBank t.cfg t.frontier ∧ st = t.regs.stInfo := by simpa using hlast
  rw [haddr, hlength] at hlt htr
  rw [haddr] at hhb
  have hstart := htr.start_le
  obtain ⟨hwin, -⟩ := wf_facts hc
  have hcut := htr.cut (by rwa [exec_cfg h]) hlt
  obtain ⟨done, hdone⟩ := Nat.exists_eq_add_of_le hstart
  rw [hdone] at hcut hlt hhb
  rw [copiedBuffer, Nat.add_sub_cancel_left] at hhb
  refine ⟨?_, by simp [htrace], hflash, done, by omega, ?_, by rw [hdone, exec_cfg h]; rfl, hhb⟩
  · rw [exec_hr hc hq.2 h]
    simp [State.response, Response.status, hkind]
  · rw [exec_cfg h] at hcut
    exact hcut.imp_left (by omega)

end Sys2Proof.Machine
end

section
/-! What ERASE and PROGRAM make of the flash array of a ready device while no call fails (R60, R61, R160, R167), and the
round trip of the three transfers (R146). -/

namespace Sys2Proof.Machine

/-! ### The flash array along a transfer -/

section
variable {bank : Nat} {s t : State}

/-- A sample that finds the device idle has seen the operation complete. -/
theorem called_flash_of_done {f : InFlight} (hf : s.inFlight = some f) (hb : s.sampleBusy = false) :
    s.called.flash = f.complete s.cfg.totalSize s.drawn s.flash := by
  have hset : (s.answer 0).settled = true := by simpa [sampleBusy_eq, hf] using hb
  have hset : s.drawn.ans.settled = true := hset
  simp [State.called, State.settle, hf, hset]

/-- A sample that finds the device busy has seen nothing of the operation. -/
theorem called_flash_of_busy (hb : s.sampleBusy = true) : s.called.flash = s.flash := by
  have hset : s.drawn.ans.settled = false := by
    rw [sampleBusy_eq] at hb
    simp_all [State.drawn]
  unfold State.called State.settle
  split
  · rfl
  · rw [if_neg (by simp [hset])]
    rfl

theorem mutates_flash_of_ready {u : State} (hm : s.Mutates u) (hready : s.ready = true) (h0 : s.nextStatus = 0) :
    u.flash = s.flash := by
  cases hm
  · rw [program_of_ready hready h0]; rfl
  · rw [eraseBlock_of_ready hready h0]; rfl

/-- R60, R61: as long as no call fails, the array changes where a poll ends, by the completion of the segment. -/
theorem State.TransferExit.flash (h : s.TransferExit t) (hs : s.Transfers) (hd : s.OnDevice bank) (h2 : s.regs.op ≠ 2)
    (hok : t.Unfailed) :
    t.flash = if t.fsm = .adv then s.segmentFlight.complete s.cfg.totalSize s.drawn s.flash else s.flash := by
  have hready (hin : s.fsm.inLoop = true) (hp : s.fsm ≠ .poll) := hd.ready hs hin hp
  cases h
  case loads => exact (if_neg (by simp only; split <;> simp)).symm
  case selects hb _ =>
    rw [if_neg (by simp), goto_flash, bankSelect_of_ready (hready (by rw [hb]; rfl) (by simp [hb]))]
    rfl
  case copies h2' => exact absurd h2' h2
  case issues u hx _ hm h0 =>
    rw [if_neg (by simp), startPoll_flash]
    exact mutates_flash_of_ready hm (hready (by rw [hx]; rfl) (by simp [hx])) h0
  case completes hp _ hb =>
    have hflight := hd.flight (.inr (hs.clean (by rw [hp]; rfl)).1)
    rw [if_pos hp] at hflight
    rw [goto_fsm, if_pos rfl, ← called_flash_of_done hflight hb]
    rfl
  case pollsAgain hp _ hb _ =>
    have hadv : s.statusGet.fsm ≠ .adv := by simp [hp]
    exact (called_flash_of_busy hb).trans (if_neg hadv).symm
  case advances => exact (if_neg (by simp only [State.visitAdv]; split <;> simp)).symm
  case translates => rfl
  case measures => rfl
  case responds => rfl
  all_goals simp [State.Unfailed] at hok

end

/-! ### ERASE -/

/-- In both modes ERASE's first block is that of its address (R160, R167). -/
theorem segmentStart_eraseStart (c : Config) (address : Nat) :
    segmentStart c 4 (eraseStart c address) = alignDownBlock c address := by
  cases hmode : c.eraseMode <;> simp [segmentStart, eraseStart, hmode]

theorem segmentStart_mono (c : Config) (op : Opcode) {x y : Nat} (h : x ≤ y) :
    segmentStart c op x ≤ segmentStart c op y := by
  unfold segmentStart
  split
  · cases c.eraseMode
    · exact h
    · exact Nat.mul_le_mul_right _ (Nat.div_le_div_right h)
  · exact h

/-- What an ERASE that has not failed has made of the array: the blocks up to the frontier are erased. -/
structure State.Erases (s u : State) : Prop where
  op     : u.regs.op = 4
  wf     : u.Unfailed → u.flash.wf
  erased : u.Unfailed → ∀ x, u.flash.read x =
    if alignDownBlock u.cfg u.regs.addr ≤ x ∧ x < u.frontier then erasedByte else s.flash.read x

theorem erases_accept {s : State} {address length : Nat} (hwf : s.flash.wf) :
    s.Erases (s.accept ((Instr.erase address length).load s.regs)) where
  op := rfl
  wf := fun _ => hwf
  erased := fun _ x => by
    have hfront : (s.accept ((Instr.erase address length).load s.regs)).frontier = alignDownBlock s.cfg address :=
      segmentStart_eraseStart s.cfg address
    rw [hfront, if_neg]
    · rfl
    · rw [accept_cfg, accept_regs]
      exact fun ⟨hlow, hhigh⟩ => absurd hlow (Nat.not_le.2 hhigh)

theorem State.TransferExit.erases {bank : Nat} {s u v : State} (h : u.TransferExit v) (hu : u.Transfers)
    (e : u.Exit v) (hw : u.Walks) (hd : u.OnDevice bank) (hs : s.Erases u) : s.Erases v := by
  have h4 := hs.op
  have hfront := h.frontier hu e
  have hflash := h.flash hu hd (by simp [h4])
  refine ⟨e.op.trans h4, fun hok => ?_, fun hok x => ?_⟩
  · have hwf := hs.wf (h.unfailed hu hok)
    rw [hflash hok]
    split
    · exact InFlight.wf_complete hwf _ _ _
    · exact hwf
  · have hread := hs.erased (h.unfailed hu hok) x
    rw [hflash hok, hfront, e.cfg, e.addr]
    split
    · rename_i hadv
      obtain ⟨-, -, hcur⟩ := h.segment_of_adv hu hadv
      have hlow : alignDownBlock u.cfg u.regs.addr ≤ u.frontier := by
        have hstart := hw.start
        rw [transferStart, if_pos h4] at hstart
        rw [← segmentStart_eraseStart, State.frontier, h4]
        exact segmentStart_mono _ _ hstart
      have hseg : u.segmentFlight = .erase u.frontier u.regs.segLen := by
        rw [State.segmentFlight, if_neg (by simp [h4]), State.frontier, hcur]
      rw [hseg, InFlight.complete, Memory.read_eraseRange, hread]
      split
      · rw [if_pos (by omega)]
      · refine if_congr ?_ rfl rfl
        omega
    · exact hread

/-! ### PROGRAM -/

/-- R61: a programmed byte that was erased holds the source's byte. -/
theorem read_store_programmed {m : Memory} (hm : m.sorted) {total : Nat} (d : Drawn) (da : Nat) (src : List Byte)
    {x : Nat} (hlow : da ≤ x) (hhigh : x < da + src.length) (htotal : x < total) (her : m.read x = erasedByte) :
    (m.store total da (programmed d m da src)).read x = src.getD (x - da) 0 := by
  have hat : da + (x - da) = x := Nat.add_sub_cancel' hlow
  have hlt : x - da < src.length := by omega
  rw [Memory.read_store hm, length_programmed, if_pos ⟨hlow, hhigh, htotal⟩]
  simp [programmed, List.getD_eq_getElem?_getD, hat, her, hlt]

/-- Bytes outside the source's range stay as they are. -/
theorem read_store_outside {m : Memory} (hm : m.sorted) (total da : Nat) (bs : List Byte) {x : Nat}
    (h : x < da ∨ da + bs.length ≤ x) : (m.store total da bs).read x = m.read x := by
  rw [Memory.read_store hm, if_neg (by omega)]

theorem getD_bufRead {hb : List Byte} {off n i : Nat} (h : i < n) :
    (bufRead hb off n).getD i 0 = hb.getD (off + i) 0 := by
  simp [bufRead, List.getD_eq_getElem?_getD, h]

/-- What a PROGRAM that has not failed has made of the array: the erased bytes up to the frontier hold the buffer's, and
every byte outside is as it was. -/
structure State.Programs (s u : State) : Prop where
  op      : u.regs.op = 3
  hb      : u.hb = s.hb
  length  : u.regs.len ≤ s.hb.length
  wf      : u.Unfailed → u.flash.wf
  written : u.Unfailed → ∀ x, u.regs.addr ≤ x → x < u.frontier → s.flash.read x = erasedByte →
    u.flash.read x = s.hb.getD (x - u.regs.addr) 0
  outside : u.Unfailed → ∀ x, x < u.regs.addr ∨ u.frontier ≤ x → u.flash.read x = s.flash.read x

theorem programs_accept {s : State} {i : Instr} (h3 : i.opcode = 3) (hwf : s.flash.wf)
    (hlen : (i.load s.regs).len ≤ s.hb.length) : s.Programs (s.accept (i.load s.regs)) where
  op := by simpa using h3
  hb := rfl
  length := hlen
  wf := fun _ => hwf
  written := fun _ x hlow hhigh => by
    have hop : (s.accept (i.load s.regs)).regs.op ≠ 4 := by simp [h3]
    have hfront : (s.accept (i.load s.regs)).nextCursor = (i.load s.regs).addr := if_neg hop
    rw [frontier_of_ne hop, hfront] at hhigh
    exact absurd hlow (Nat.not_le.2 hhigh)
  outside := fun _ _ _ => rfl

/-- The bytes of a PROGRAM's segment lie in the request and in the device. -/
theorem segment_bounds {u : State} (hu : u.Transfers) (hin : u.fsm.inLoop = true)
    (hm : u.regs.Measured u.cfg) (h4 : u.regs.op ≠ 4) :
    u.regs.bufOff + u.regs.segLen ≤ u.regs.len ∧ u.regs.cursor + u.regs.segLen ≤ u.cfg.totalSize := by
  have htr := transferring_of_inLoop hu.loop hin
  have hle := advanceStep_le_remaining htr hm h4
  have hbuf := htr.buffer h4
  have hrange := htr.range
  rw [advanceStep, if_neg h4] at hle
  omega

theorem State.TransferExit.programs {bank : Nat} {s u v : State} (h : u.TransferExit v) (hu : u.Transfers)
    (e : u.Exit v) (hw : u.Walks) (hd : u.OnDevice bank) (hs : s.Programs u) : s.Programs v := by
  obtain ⟨h3, hhb, hlen, hwf, hwritten, houtside⟩ := hs
  have h4 : u.regs.op ≠ 4 := by simp [h3]
  have hfront := h.frontier hu e
  have hflash := h.flash hu hd (by simp [h3])
  have hbefore := h.unfailed hu
  by_cases hadv : v.fsm = .adv
  · obtain ⟨hin, hm, hcur⟩ := h.segment_of_adv hu hadv
    rw [← frontier_of_ne h4] at hcur
    have hoff := hw.cursor hu hin h4
    obtain ⟨hbuf, htotal⟩ := segment_bounds hu hin hm h4
    have hseg : u.segmentFlight = .program u.frontier (bufRead s.hb u.regs.bufOff u.regs.segLen) := by
      rw [State.segmentFlight, if_pos h3, segmentStart_of_ne h4, hcur, hhb]
    have hsrc : (bufRead s.hb u.regs.bufOff u.regs.segLen).length = u.regs.segLen := by
      rw [bufRead, List.length_take, List.length_drop]
      omega
    rw [if_pos hadv] at hfront
    simp only [if_pos hadv, hseg, InFlight.complete] at hflash
    refine ⟨e.op.trans h3, (e.hb (by simp [h3])).trans hhb, e.len ▸ hlen, fun hok => ?_, fun hok x hlow hhigh her => ?_,
      fun hok x hx => ?_⟩ <;> have hsorted := hwf (hbefore hok) <;> rw [hflash hok]
    · exact Memory.wf_store hsorted _ _ _
    · rw [e.addr] at hlow ⊢
      rw [hfront] at hhigh
      by_cases hx : x < u.frontier
      · rw [read_store_outside hsorted.1 _ _ _ (.inl hx)]
        exact hwritten (hbefore hok) x hlow hx her
      · have hold := houtside (hbefore hok) x (.inr (Nat.not_lt.1 hx))
        rw [read_store_programmed hsorted.1 _ _ _ (Nat.not_lt.1 hx) (by omega) (by omega) (hold.trans her),
          getD_bufRead (by omega)]
        congr 1
        omega
    · rw [e.addr, hfront] at hx
      rw [read_store_outside hsorted.1 _ _ _ (by rw [length_programmed]; omega)]
      exact houtside (hbefore hok) x (by omega)
  · rw [if_neg hadv] at hfront
    simp only [if_neg hadv] at hflash
    refine ⟨e.op.trans h3, (e.hb (by simp [h3])).trans hhb, e.len ▸ hlen, fun hok => ?_, fun hok => ?_, fun hok => ?_⟩
    · rw [hflash hok]
      exact hwf (hbefore hok)
    · rw [hflash hok, hfront, e.addr]
      exact hwritten (hbefore hok)
    · rw [hflash hok, hfront, e.addr]
      exact houtside (hbefore hok)

/-! ### The three together (R146) -/

/-- R160, R162, R167: an ERASE of a ready device whose calls succeed and finish erases its blocks and no byte else. -/
theorem exec_erase_of_favoured {m : Nat} {s : State} {address length : Nat} (hc : s.cfg.wf = true) (hq : s.quiet)
    (hready : s.ready = true) (hwf : s.flash.wf) (hsucc : s.allSucceed (callBound s.cfg length + m))
    (hfin : s.healthy (callBound s.cfg length + m)) (hrange : address + length ≤ s.cfg.totalSize) :
    ∃ t, exec (.erase address length) s = .next t ∧ s.Finishes (.erase address length) m t ∧ t.flash.wf ∧
      ∀ x, t.flash.read x =
        if alignDownBlock s.cfg address ≤ x ∧ x < eraseEnd s.cfg address length then erasedByte
        else s.flash.read x := by
  obtain ⟨t, h⟩ : ∃ t, exec (.erase address length) s = .next t := ⟨_, exec_of_idle rfl hq.1⟩
  have hs : (s.accept ((Instr.erase address length).load s.regs)).Transfers :=
    transfers_accept hc (.inr (.inr rfl)) (not_rejected (.inr (.inr rfl)) (absurd rfl) hrange)
  have hend := exec_finishes hq h hs hready (favoured_accept hsucc fun _ => hfin)
  obtain ⟨-, -, -, hwf', herased⟩ := exec_keeps_on_device (P := s.Erases) hq h hs hready (erases_accept hwf)
    fun _ _ hu e ht hw hd he => ht.erases hu e hw hd he
  rw [hend.addr, hend.frontier, hend.cfg] at herased
  exact ⟨t, h, hend, hwf' (.inr hend.ok), herased (.inr hend.ok)⟩

/-- R150, R151, R61: a PROGRAM of a ready device whose calls succeed and finish writes the buffer to the erased bytes of
its request. -/
theorem exec_program_of_favoured {m : Nat} {s : State} {address length : Nat} (hc : s.cfg.wf = true) (hq : s.quiet)
    (hready : s.ready = true) (hwf : s.flash.wf) (hsucc : s.allSucceed (callBound s.cfg length + m))
    (hfin : s.healthy (callBound s.cfg length + m)) (hrange : address + length ≤ s.cfg.totalSize)
    (hlen : length ≤ s.hb.length) :
    ∃ t, exec (.program true address length) s = .next t ∧ s.Finishes (.program true address length) m t ∧
      ∀ x, address ≤ x → x < address + length → s.flash.read x = erasedByte →
        t.flash.read x = s.hb.getD (x - address) 0 := by
  have hfits : s.bufferFits (.program true address length) = true := by
    simp [State.bufferFits, bufferTooShort_of_le hlen]
  obtain ⟨t, h⟩ : ∃ t, exec (.program true address length) s = .next t := ⟨_, exec_of_idle hfits hq.1⟩
  have hs : (s.accept ((Instr.program true address length).load s.regs)).Transfers :=
    transfers_accept hc (.inr (.inl rfl)) (not_rejected (.inr (.inl rfl)) (fun _ => rfl) hrange)
  have hend := exec_finishes hq h hs hready (favoured_accept hsucc fun _ => hfin)
  obtain ⟨-, -, -, -, -, -, hwritten, -⟩ := exec_keeps_on_device (P := s.Programs) hq h hs hready
    (programs_accept rfl hwf hlen) fun _ _ hu e ht hw hd he => ht.programs hu e hw hd he
  rw [hend.addr, hend.frontier] at hwritten
  exact ⟨t, h, hend, hwritten (.inr hend.ok)⟩

/-- R166: an aligned request ends with its last block, in both modes. -/
theorem eraseEnd_of_aligned {c : Config} (hc : c.wf = true) {address length : Nat} (ha : c.eraseGran ∣ address)
    (hl : c.eraseGran ∣ length) :
    alignDownBlock c address = address ∧ eraseEnd c address length = address + length := by
  have hfirst : alignDownBlock c address = address := Nat.div_mul_cancel ha
  have hstart : eraseStart c address = address := by
    unfold eraseStart
    cases c.eraseMode
    · exact hfirst
    · rfl
  refine ⟨hfirst, ?_⟩
  rcases Nat.eq_zero_or_pos length with rfl | hpos
  · have hnone : segmentStart c 4 (eraseStart c address) = eraseEnd c address 0 :=
      segmentStart_transferStart hc 4 address
    rw [← hnone, segmentStart_eraseStart, hfirst, Nat.add_zero]
  · have hle : c.eraseGran ≤ length := Nat.le_of_dvd hpos hl
    have hcut : (address + length - c.eraseGran) % c.eraseGran = 0 :=
      Nat.mod_eq_zero_of_dvd (Nat.dvd_sub (Nat.dvd_add ha hl) dvd_rfl)
    have hstep : eraseStep c (address + length - c.eraseGran) = c.eraseGran := by
      unfold eraseStep
      cases c.eraseMode
      · rfl
      · simp [remainBlock, hcut]
    obtain ⟨-, -, -, -, he, -⟩ := wf_facts hc
    rw [← cursor_add_eraseStep_eq_eraseEnd hc hpos (fun _ => hcut) (by omega) (by omega), hstep]
    omega

theorem callBound_add (c : Config) (m n : Nat) : callBound c (m + n) = callBound c m + callBound c n :=
  Nat.add_mul _ _ _

theorem readRange_eq_of_getD {m : Memory} {a : Nat} {bs : List Byte}
    (h : ∀ i, i < bs.length → m.read (a + i) = bs.getD i 0) :
    m.readRange a bs.length = bs :=
  List.ext_getElem (by simp) fun i _ hi => by rw [Memory.readRange_getElem, h i hi, List.getD_eq_getElem]

/-- Settles O40: the erased region holds the programmed range, and the READ copies what was programmed. -/
theorem eraseProgramReadRoundTrips : Obligations.EraseProgramReadRoundTrips := by
  intro s start size address data back hc hq hready hwf hsucc hfin hstart hsize hregion hlow hhigh hback
  rw [callBound_add, Nat.two_mul, callBound_add] at hsucc hfin
  obtain ⟨t1, h1, hend1, hwf1, herased⟩ := exec_erase_of_favoured hc hq hready hwf hsucc hfin hregion
  obtain ⟨hfirst, hlast⟩ := eraseEnd_of_aligned hc hstart hsize
  rw [hfirst, hlast] at herased
  have hsucc1 := hend1.succeeds
  have hfin1 := hend1.finishes (by simp [Instr.opcode])
  rw [← hend1.cfg] at hsucc1 hfin1 hc hregion
  obtain ⟨t2, h2, hend2, hwritten⟩ := exec_program_of_favoured (s := { t1 with hb := data })
    (m := callBound t1.cfg data.length) (address := address) (length := data.length) hc hend1.quiet hend1.ready hwf1
    hsucc1 hfin1 (hhigh.trans hregion) le_rfl
  have hsucc2 := hend2.succeeds
  have hcfg2 : t2.cfg = t1.cfg := hend2.cfg
  rw [← hcfg2] at hsucc2 hc hregion
  obtain ⟨t3, h3, hr3, hhb3, -⟩ := readCopiesTheFlashIntoTheBuffer { t2 with hb := back } address data.length hc
    hend2.quiet hend2.ready hsucc2 (hhigh.trans hregion) (Nat.le_of_eq hback.symm)
  have hread : t2.flash.readRange address data.length = data := readRange_eq_of_getD fun i hi => by
    have her : t1.flash.read (address + i) = erasedByte := by rw [herased, if_pos (by omega)]
    rw [hwritten (address + i) (by omega) (by omega) her, Nat.add_sub_cancel_left]
  refine ⟨t1, t2, t3, h1, h2, h3, hr3, ?_⟩
  rw [hhb3, hread, List.drop_of_length_le (Nat.le_of_eq hback), List.append_nil]

end Sys2Proof.Machine
end

section
/-! Settling the statements of spec/43_program.md, layer 1: PROGRAM and WRITE on a ready device whose calls succeed and
finish (R61, R150, R151). -/

namespace Sys2Proof.Machine

/-- R93: WRITE is PROGRAM. -/
theorem exec_eq_program {i : Instr} {bv : Bool} {address length : Nat}
    (hi : i = .program bv address length ∨ i = .write bv address length) (s : State) :
    exec i s = exec (.program bv address length) s := by
  rcases hi with rfl | rfl
  · rfl
  · exact aliasesMeanTheirCommands (.write bv address length) s

/-- A PROGRAM with a buffer and inside the device passes validation. -/
theorem transfers_program {s : State} {address length : Nat} (hc : s.cfg.wf = true)
    (hrange : address + length ≤ s.cfg.totalSize) :
    (s.accept ((Instr.program true address length).load s.regs)).Transfers :=
  transfers_accept hc (.inr (.inl rfl)) (not_rejected (.inr (.inl rfl)) (fun _ => rfl) hrange)

theorem exec_program_operands {s t : State} {bv : Bool} {address length : Nat} (hr : s.resets = [])
    (h : exec (.program bv address length) s = .next t) : t.regs.addr = address ∧ t.regs.len = length := by
  obtain ⟨⟨-, -, haddr, hlength⟩, -⟩ := commandsChangeOnlyTheirRegisters _ s t hr h
  exact ⟨haddr, hlength⟩

/-- R51: a PROGRAM inside the device that runs has a buffer of its length. -/
theorem length_le_of_exec_program {s t : State} {address length : Nat} (hrange : address + length ≤ s.cfg.totalSize)
    (h : exec (.program true address length) s = .next t) : length ≤ s.hb.length := by
  obtain ⟨hfits, -⟩ := exec_next h
  by_contra hshort
  have : s.bufferTooShort true address length = true := (bufferTooShort_iff ..).2 ⟨rfl, hrange, Nat.not_le.1 hshort⟩
  simp [State.bufferFits, this] at hfits

/-- Settles O30: the PROGRAM answers Ok, and what it has written ends where the request does. -/
theorem programWritesTheErasedBytes : Obligations.ProgramWritesTheErasedBytes := by
  intro s address length i hi hc hq hready hwf hsucc hfin hrange hlen
  rw [exec_eq_program hi]
  obtain ⟨t, h, hend, hwritten⟩ := exec_program_of_favoured (m := 0) hc hq hready hwf hsucc hfin hrange hlen
  obtain ⟨-, hd, -, hhb, -, -, -, houtside⟩ := exec_keeps_on_device (P := s.Programs) hq h
    (transfers_program hc hrange) hready (programs_accept rfl hwf hlen)
    fun _ _ hu e ht hw hd he => ht.programs hu e hw hd he
  obtain ⟨hopened, hcond⟩ := onlyOpenAndCloseChangeTheLifecycle _ s t hq.2 (by simp [Instr.opcode])
    (by simp [Instr.opcode]) h
  obtain ⟨hidle, hresets⟩ := hend.quiet
  obtain ⟨-, -, hflight⟩ := (ready_iff t).1 hend.ready
  have haddr : t.regs.addr = address := hend.addr
  have hlength : t.regs.len = length := hend.len
  have hfront : t.frontier = address + length := hend.frontier
  have hbank := hd.ended (.inr hidle) hend.ok
  rw [hlength, hfront, hend.cfg] at hbank
  have hkept := houtside (.inr hend.ok)
  rw [haddr, hfront] at hkept
  refine ⟨t, h, hend.hr, fun k hk her => ?_, hkept, hhb, hflight, hbank, hidle, hopened, hcond, exec_hc h, hend.cfg,
    hresets⟩
  simpa using hwritten (address + k) (by omega) (by omega) her

end Sys2Proof.Machine
end

section
/-! Layer 2: what a PROGRAM or an ERASE on a ready device leaves when a call fails or a poll runs out: the segment in
progress takes any value, every other byte is as it was (R153, R160, R219; log entry 18). -/

namespace Sys2Proof.Machine

/-! ### The bytes outside a range -/

/-- Two arrays hold the same bytes outside `[a, a + n)`. -/
def Memory.SameOutside (m m' : Memory) (a n : Nat) : Prop := ∀ x, x < a ∨ a + n ≤ x → m'.read x = m.read x

section
variable {m m' m'' : Memory} {a n : Nat}

theorem Memory.SameOutside.refl (m : Memory) (a n : Nat) : m.SameOutside m a n := fun _ _ => rfl

theorem Memory.SameOutside.trans (h : m.SameOutside m' a n) (h' : m'.SameOutside m'' a n) : m.SameOutside m'' a n :=
  fun x hx => (h' x hx).trans (h x hx)

theorem sameOutside_store (hm : m.wf) (total : Nat) {bs : List Byte} (hlen : bs.length ≤ n) :
    m.SameOutside (m.store total a bs) a n :=
  fun _ hx => read_store_outside hm.1 total a bs (by omega)

/-- The operation is a program or an erase of bytes in `[a, a + n)`, from `a` on. -/
def InFlight.Within (a n : Nat) : InFlight → Prop
  | .program da src => da = a ∧ src.length ≤ n
  | .erase da k => da = a ∧ k ≤ n
  | _ => False

/-- R60, R61: an operation that completes changes no byte outside its range. -/
theorem InFlight.Within.complete {f : InFlight} (h : f.Within a n) (hm : m.wf) (total : Nat) (d : Drawn) :
    m.SameOutside (f.complete total d m) a n := by
  cases f
  case program da src =>
    obtain ⟨rfl, hlen⟩ := h
    exact sameOutside_store hm total (by simpa using hlen)
  case erase da k =>
    obtain ⟨rfl, hlen⟩ := h
    intro x hx
    rw [InFlight.complete, Memory.read_eraseRange, if_neg (by omega)]
  all_goals exact h.elim

/-- U7: an operation that is late has changed no byte outside its range. -/
theorem InFlight.Within.late {f : InFlight} (h : f.Within a n) {s : State} (hf : s.inFlight = some f) (hm : s.flash.wf)
    (d : Drawn) : s.flash.SameOutside (s.late d).flash a n := by
  unfold State.late
  rw [hf]
  cases f
  case program da src =>
    obtain ⟨rfl, hlen⟩ := h
    exact sameOutside_store hm _ (by simpa using hlen)
  case erase da k =>
    obtain ⟨rfl, hlen⟩ := h
    exact sameOutside_store hm _ (by simpa using hlen)
  all_goals exact h.elim

/-- The device's own move in a call changes no byte outside the range of what is in flight. -/
theorem InFlight.Within.called {f : InFlight} (h : f.Within a n) {s : State} (hf : s.inFlight = some f)
    (hm : s.flash.wf) : s.called.flash.wf ∧ s.flash.SameOutside s.called.flash a n := by
  cases hb : s.sampleBusy
  · rw [called_flash_of_done hf hb]
    exact ⟨InFlight.wf_complete hm _ _ _, h.complete hm _ _⟩
  · rw [called_flash_of_busy hb]
    exact ⟨hm, .refl _ _ _⟩

end

/-! ### The visit in which a transfer fails -/

section
variable {bank : Nat} {s t : State}

theorem segmentFlight_within (s : State) :
    s.segmentFlight.Within (segmentStart s.cfg s.regs.op s.regs.cursor) s.regs.segLen := by
  unfold State.segmentFlight
  split
  · exact ⟨rfl, by simp [bufRead]⟩
  · exact ⟨rfl, le_rfl⟩

/-- U7, R219: a `program` or `erase_block` that fails leaves the bytes of its segment any value. -/
theorem mutates_flash_of_failed {u : State} (hm : s.Mutates u) (hready : s.ready = true) (h0 : s.nextStatus ≠ 0) :
    u.flash = s.flash.store s.cfg.totalSize (s.deviceAddress s.regs.pa) (s.drawn.bytes s.regs.segLen) := by
  obtain ⟨-, -, hidle⟩ := (ready_iff s).1 hready
  have hdraw : s.draw.ready = true := hready
  cases hm
  · simp only [State.program, called_of_idle hidle, hdraw, if_true, if_neg h0]
    rfl
  · simp only [State.eraseBlock, called_of_idle hidle, hdraw, if_true, if_neg h0]
    rfl

/-- The length of the segment at the cursor. -/
def State.segmentSize (s : State) : Nat := segmentLength s.cfg s.regs.op s.regs.cursor s.regs.remaining

/-- The visit in which a PROGRAM or an ERASE fails changes no byte outside its segment. -/
theorem State.TransferExit.flash_of_failed (h : s.TransferExit t) (hs : s.Transfers) (hd : s.OnDevice bank)
    (h2 : s.regs.op ≠ 2) (hwf : s.flash.wf) (hin : s.fsm.inLoop = true) (hfail : ¬t.Unfailed) :
    s.fsm ≠ .adv ∧ s.flash.SameOutside t.flash s.frontier s.segmentSize := by
  have hat (hx : s.fsm = .xfer ∨ s.fsm = .poll) :
      s.deviceAddress s.regs.pa = s.frontier ∧ s.regs.segLen = s.segmentSize :=
    ⟨(hd.deviceAddress hs hx).trans (frontier_of_cursor (by rcases hx with e | e <;> simp [e])
      (by rcases hx with e | e <;> simp [e])).symm, hs.loop.length (by rcases hx with e | e <;> rw [e] <;> rfl)⟩
  have hkind : s.regs.stKind = .ok := (hs.clean hin).1
  have hflight (hp : s.fsm = .poll) : s.inFlight = some s.segmentFlight ∧
      s.segmentFlight.Within s.frontier s.segmentSize := by
    have hwithin := segmentFlight_within s
    rw [(hat (.inr hp)).2, ← frontier_of_cursor (by simp [hp]) (by simp [hp])] at hwithin
    exact ⟨(hd.flight (.inr hkind)).trans (if_pos hp), hwithin⟩
  cases h
  case selectFails hb _ =>
    refine ⟨by simp [hb], ?_⟩
    rw [raise_flash, bankSelect_of_ready (hd.ready hs hin (by simp [hb]))]
    exact .refl _ _ _
  case issueFails u hx _ hm h0 =>
    obtain ⟨hda, hsize⟩ := hat (.inl hx)
    refine ⟨by simp [hx], ?_⟩
    rw [raise_flash, mutates_flash_of_failed hm (hd.ready hs hin (by simp [hx])) h0, hda]
    exact sameOutside_store hwf _ (by simp [hsize])
  case pollFails hp _ =>
    obtain ⟨hda, hsize⟩ := hat (.inr hp)
    obtain ⟨hf, hwithin⟩ := hflight hp
    obtain ⟨hcalled, hsame⟩ := hwithin.called hf hwf
    have hda' : s.statusGet.deviceAddress s.regs.pa = s.frontier := by
      simpa [State.deviceAddress] using hda
    refine ⟨by simp [hp], hsame.trans ?_⟩
    rw [raise_flash, spoil_flash, hda']
    exact sameOutside_store hcalled _ (by simp [hsize])
  case timesOut hp _ hb _ =>
    obtain ⟨hf, hwithin⟩ := hflight hp
    have hset : (s.answer 0).settled = false := by
      rw [sampleBusy_eq] at hb
      simp_all
    have hkept : s.called.inFlight = some s.segmentFlight := by simp [called_inFlight, hset, hf]
    have hflash := called_flash_of_busy hb
    have hlate := hwithin.late (s := { s.statusGet with regs := { s.regs with pollCnt := s.regs.pollCnt - 1 } }) hkept
      (hflash ▸ hwf) s.drawn
    refine ⟨by simp [hp], ?_⟩
    rw [raise_flash]
    exact hflash ▸ hlate
  case copies h2' => exact absurd h2' h2
  case issues hm _ => exact absurd (.inr (by simpa [hm.regs] using hkind)) hfail
  case loads => exact absurd (.inr rfl) hfail
  case translates | measures | advances => exact absurd (.inr hkind) hfail
  all_goals exact absurd (.inr (by simpa using hkind)) hfail

/-! ### The segments that are complete -/

/-- R65, R131: a segment of a PROGRAM or an ERASE is complete by the sample that leads to `S_ADV`. -/
theorem State.TransferExit.completed (h : s.TransferExit t) (h2 : s.regs.op ≠ 2) :
    countCompleted t.trace = countCompleted s.trace + if t.fsm = .adv then 1 else 0 := by
  cases h
  case loads => by_cases hz : s.regs.len = 0 <;> simp [hz]
  case copies h2' => exact absurd h2' h2
  case issues hm _ => cases hm <;> simp [countCompleted]
  case issueFails hm _ => cases hm <;> simp [countCompleted]
  case pollFails h0 => simp [countCompleted, h0]
  case completes h0 hb => simp [countCompleted, h0, hb]
  case timesOut hb _ => simp [countCompleted, hb]
  case pollsAgain hp _ hb _ => simp [countCompleted, hb, hp]
  case advances => simp only [State.visitAdv]; split <;> simp
  all_goals simp [countCompleted, State.visitXlate, State.visitSeg]

end

/-! ### The whole command -/

/-- The transfer has ended in `t` by a failure in the segment that `u` has begun. -/
structure State.FailedIn (u t : State) : Prop where
  begun     : u.Transfers ∧ u.fsm.inLoop = true ∧ u.fsm ≠ .adv ∧ u.Walks
  operands  : t.regs.operands = u.regs.operands
  cfg       : t.cfg = u.cfg
  completed : countCompleted t.trace = countCompleted u.trace
  flash     : u.flash.SameOutside t.flash u.frontier u.segmentSize

/-- A PROGRAM or an ERASE on a ready device answers Ok, or has failed in a segment, whatever the oracle answers. What is
kept along the command holds at its end and where that segment has begun. -/
theorem exec_ends_on_device {P : State → Prop} {i : Instr} {s t : State} (hq : s.quiet) (h : exec i s = .next t)
    (hs : (s.accept (i.load s.regs)).Transfers) (hready : s.ready = true) (h2 : i.opcode ≠ 2)
    (hacc : P (s.accept (i.load s.regs))) (hwf : ∀ u, P u → u.Unfailed → u.flash.wf)
    (hexit : ∀ u v : State, u.Transfers → u.Exit v → u.TransferExit v → u.Walks → u.OnDevice s.activeBank → P u → P v) :
    t.Walks ∧ P t ∧ (t.regs.stKind = .ok ∨ ∃ u, P u ∧ u.FailedIn t) := by
  have hkept := exec_keeps_on_device
    (P := fun v => v.regs.op ≠ 2 ∧ P v ∧ (v.Unfailed ∨ ∃ u, P u ∧ u.FailedIn v)) hq h hs hready
    ⟨by simpa using h2, hacc, .inl (.inl rfl)⟩ ?_
  · obtain ⟨hw, -, -, hP, hend⟩ := hkept
    have hchecked : t.fsm ≠ .check := by simp [exec_fsm (s := s) hs.config h]
    exact ⟨hw, hP, hend.imp_left fun hok => hok.resolve_left hchecked⟩
  · rintro u v hu e ht hw hd ⟨hop, hP, hend⟩
    refine ⟨e.op ▸ hop, hexit u v hu e ht hw hd hP, or_iff_not_imp_left.2 fun hfail => ?_⟩
    have hcount := ht.completed hop
    by_cases hin : u.fsm.inLoop = true
    · obtain ⟨hadv, hsame⟩ := ht.flash_of_failed hu hd hop (hwf u hP (.inr (hu.clean hin).1)) hin hfail
      have hout : v.fsm ≠ .adv := fun hv => hfail (.inr (ht.clean hu (by rw [hv]; rfl)).1)
      exact ⟨u, hP, ⟨hu, hin, hadv, hw⟩, e.operands, e.cfg, by rw [hcount, if_neg hout, Nat.add_zero], hsame⟩
    · cases ht
      case loads => exact absurd (.inr rfl) hfail
      case responds hf =>
        obtain ⟨w, hPw, hw⟩ := hend.resolve_left (by simpa [State.Unfailed, hf] using hfail)
        exact ⟨w, hPw, hw.begun, hw.operands, hw.cfg, hw.completed, hw.flash⟩
      all_goals simp_all [Fsm.inLoop]

end Sys2Proof.Machine
end

section
/-! Layer 3: the complete segments of a PROGRAM are the first pages of its request, and those of an ERASE the first
blocks (R151, R160); settling the frame of PROGRAM (R150, R153) and that complete segments are not undone (R219). -/

namespace Sys2Proof.Machine

/-! ### The pages of a request (R151) -/

section
variable {c : Config} {a len j : Nat}

@[simp] theorem pageStart_zero (c : Config) (a : Nat) : pageStart c a 0 = a :=
  max_eq_left (Nat.div_mul_le_self _ _)

theorem pageStart_le : a ≤ pageStart c a j ∧ (a / c.progGran + j) * c.progGran ≤ pageStart c a j :=
  ⟨le_max_left _ _, le_max_right _ _⟩

/-- The `j`-th page of a request ends past its first byte. -/
theorem lt_pageBound (hp : 0 < c.progGran) : a < (a / c.progGran + j + 1) * c.progGran := by
  have hdm := Nat.div_add_mod' a c.progGran
  have hlt := Nat.mod_lt a hp
  rw [Nat.add_right_comm, Nat.add_mul, Nat.succ_mul]
  omega

theorem pageStart_succ (hp : 0 < c.progGran) : pageStart c a (j + 1) = (a / c.progGran + j + 1) * c.progGran :=
  max_eq_right (lt_pageBound hp).le

theorem pageStart_lt (hp : 0 < c.progGran) : pageStart c a j < pageStart c a (j + 1) := by
  rw [pageStart_succ hp]
  exact max_lt (lt_pageBound hp) (Nat.mul_lt_mul_of_pos_right (Nat.lt_succ_self _) hp)

/-- The rest of the page from its first byte in the request on ends where the next page starts. -/
theorem pageStart_add_remainPage (hp : 0 < c.progGran) :
    pageStart c a j + remainPage c (pageStart c a j) = pageStart c a (j + 1) := by
  have hdiv : pageStart c a j / c.progGran = a / c.progGran + j := by
    have hlt := pageStart_lt (a := a) (j := j) hp
    rw [pageStart_succ hp] at hlt
    exact Nat.div_eq_of_lt_le pageStart_le.2 hlt
  have hdm := Nat.div_add_mod' (pageStart c a j) c.progGran
  have hmod := Nat.mod_lt (pageStart c a j) hp
  rw [hdiv] at hdm
  rw [pageStart_succ hp, remainPage, Nat.succ_mul]
  omega

theorem pageEnd_eq (hp : 0 < c.progGran) : pageEnd c a len j = min (a + len) (pageStart c a (j + 1)) := by
  rw [pageStart_succ hp, pageEnd]

end

/-! ### The segments of a PROGRAM -/

/-- The complete segments of a PROGRAM are the first pages of its request. -/
structure State.PagesCounted (s : State) : Prop where
  op       : s.regs.op = 3
  frontier : s.frontier =
    min (s.regs.addr + s.regs.len) (pageStart s.cfg s.regs.addr (countCompleted s.trace))

section
variable {s t : State}

theorem pagesCounted_accept {i : Instr} (h3 : i.opcode = 3) : (s.accept (i.load s.regs)).PagesCounted where
  op := by simpa using h3
  frontier := by
    have hop : (s.accept (i.load s.regs)).regs.op ≠ 4 := by simp [h3]
    have hfront : (s.accept (i.load s.regs)).nextCursor = (i.load s.regs).addr := if_neg hop
    have hnone : countCompleted (s.accept (i.load s.regs)).trace = 0 := rfl
    rw [frontier_of_ne hop, hfront, hnone, pageStart_zero]
    exact (min_eq_right (Nat.le_add_right _ _)).symm

/-- R151: the segment at the cursor is the request's part in the page after the complete ones. -/
theorem State.PagesCounted.segment (h : s.PagesCounted) (hs : s.Transfers) (hw : s.Walks) (hin : s.fsm.inLoop = true)
    (hadv : s.fsm ≠ .adv) {j : Nat} (hj : countCompleted s.trace = j) :
    s.regs.cursor = pageStart s.cfg s.regs.addr j ∧ pageStart s.cfg s.regs.addr j < s.regs.addr + s.regs.len ∧
      s.frontier = s.regs.cursor ∧ s.regs.cursor + s.segmentSize = pageEnd s.cfg s.regs.addr s.regs.len j := by
  obtain ⟨-, -, -, hp, -⟩ := wf_facts hs.config
  have h3 := h.op
  have hcheck : s.fsm ≠ .check := fun e => by simp [e, Fsm.inLoop] at hin
  have hfront : s.frontier = s.regs.cursor := by
    rw [frontier_of_cursor hcheck hadv, segmentStart_of_ne (by simp [h3])]
  have hpage := h.frontier
  have hleft := (transferring_of_inLoop hs.loop hin).left
  have htotal := hw.total hin
  rw [transferStart, if_neg (by simp [h3])] at htotal
  rw [hfront, hj] at hpage
  have hcur : s.regs.cursor = pageStart s.cfg s.regs.addr j := by omega
  have hrest := pageStart_add_remainPage (a := s.regs.addr) (j := j) hp
  have hsize : s.segmentSize = min s.regs.remaining.toNat (remainPage s.cfg s.regs.cursor) := by
    rw [State.segmentSize, h3]
    rfl
  refine ⟨hcur, by omega, hfront, ?_⟩
  rw [pageEnd_eq hp, ← hrest, hsize, hcur]
  omega

theorem State.TransferExit.pagesCounted (h : s.TransferExit t) (hs : s.Transfers) (e : s.Exit t) (hw : s.Walks)
    (hp : s.PagesCounted) : t.PagesCounted where
  op := e.op.trans hp.op
  frontier := by
    have hcount := h.completed (by simp [hp.op])
    rw [h.frontier hs e, hcount, e.cfg, e.addr, e.len]
    by_cases hadv : t.fsm = .adv
    · obtain ⟨hin, hm, -⟩ := h.segment_of_adv hs hadv
      have hbefore : s.fsm ≠ .adv := by rcases h.of_adv hadv with ⟨hf, -⟩ | ⟨hf, -⟩ <;> simp [hf]
      obtain ⟨-, -, hfront, hend⟩ := hp.segment hs hw hin hbefore rfl
      obtain ⟨-, -, -, hpos, -⟩ := wf_facts hs.config
      rw [if_pos hadv, if_pos hadv, hfront, ← pageEnd_eq hpos, ← hend]
      exact congrArg _ hm
    · rw [if_neg hadv, if_neg hadv]
      exact hp.frontier

/-- What a PROGRAM that passes validation on a ready device ends with, whatever the oracle answers. -/
theorem exec_program_ends {address length : Nat} (hc : s.cfg.wf = true) (hq : s.quiet) (hready : s.ready = true)
    (hwf : s.flash.wf) (hrange : address + length ≤ s.cfg.totalSize)
    (h : exec (.program true address length) s = .next t) :
    t.Walks ∧ (s.Programs t ∧ t.PagesCounted) ∧
      (t.regs.stKind = .ok ∨ ∃ u, (s.Programs u ∧ u.PagesCounted) ∧ u.FailedIn t) :=
  exec_ends_on_device (P := fun u => s.Programs u ∧ u.PagesCounted) hq h (transfers_program hc hrange) hready
    (by simp [Instr.opcode]) ⟨programs_accept rfl hwf (length_le_of_exec_program hrange h), pagesCounted_accept rfl⟩
    (fun _ ⟨hp, _⟩ hok => hp.wf hok)
    fun _ _ hu e ht hw hd ⟨hp, hn⟩ => ⟨ht.programs hu e hw hd hp, ht.pagesCounted hu e hw hn⟩

/-- The array after a PROGRAM on a ready device: the erased bytes of the complete pages hold the buffer's, and no byte
outside the request or past the page after them has changed. -/
structure State.ProgramLeaves (address length : Nat) (s t : State) : Prop where
  written : ∀ x, address ≤ x → x < address + length →
    x < (address / s.cfg.progGran + countCompleted t.trace) * s.cfg.progGran → s.flash.read x = erasedByte →
    t.flash.read x = s.hb.getD (x - address) 0
  outside : ∀ x, x < address ∨ pageEnd s.cfg address length (countCompleted t.trace) ≤ x →
    t.flash.read x = s.flash.read x

/-- A PROGRAM that is rejected leaves the array alone. -/
theorem programLeaves_of_rejected {address length : Nat} (hflash : t.flash = s.flash) (htrace : t.trace = []) :
    s.ProgramLeaves address length t where
  written := fun x hlow _ hpage => by
    have hle := Nat.div_mul_le_self address s.cfg.progGran
    rw [htrace] at hpage
    exact absurd (hpage.trans_le hle) (Nat.not_lt.2 hlow)
  outside := fun x _ => by rw [hflash]

/-- What a PROGRAM that has not failed has written, and what has changed no byte but those of its next segment. -/
theorem State.Programs.leaves {u : State} {address length : Nat} (hw : s.Programs u) (hp : u.PagesCounted)
    (hpos : 0 < s.cfg.progGran) (hok : u.Unfailed) (hcfg : u.cfg = s.cfg)
    (haddr : u.regs.addr = address) (hlen : u.regs.len = length)
    (hcount : countCompleted t.trace = countCompleted u.trace)
    (hsame : ∀ x, x < u.frontier ∨ pageEnd s.cfg address length (countCompleted u.trace) ≤ x →
      t.flash.read x = u.flash.read x) : s.ProgramLeaves address length t := by
  have hfront := hp.frontier
  have hlow := pageStart_le (c := s.cfg) (a := address) (j := countCompleted u.trace)
  have hnext := pageStart_lt (a := address) (j := countCompleted u.trace) hpos
  have hwritten := hw.written hok
  have houtside := hw.outside hok
  simp only [hcfg, haddr, hlen] at hfront hwritten houtside
  rw [pageEnd_eq hpos] at hsame
  constructor <;> rw [hcount]
  · intro x hx hend hpage her
    rw [hsame x (by omega)]
    exact hwritten x hx (by omega) her
  · rw [pageEnd_eq hpos]
    intro x hx
    rw [hsame x (by omega)]
    exact houtside x (by omega)

theorem exec_program_leaves {address length : Nat} {bv : Bool} (hc : s.cfg.wf = true) (hq : s.quiet)
    (hready : s.ready = true) (hwf : s.flash.wf) (h : exec (.program bv address length) s = .next t) :
    s.ProgramLeaves address length t := by
  obtain ⟨hno, hout⟩ := failedValidationChangesNothing s bv address length _ (.inr (.inl rfl)) hq
  by_cases hbv : bv = true
  · by_cases hrange : address + length ≤ s.cfg.totalSize
    · subst hbv
      obtain ⟨-, -, -, hp, -⟩ := wf_facts hc
      obtain ⟨haddr, hlength⟩ := exec_program_operands hq.2 h
      have hcfg := exec_cfg h
      obtain ⟨-, ⟨hwrote, hpages⟩, hok | ⟨u, ⟨hwrote, hpages⟩, hfail⟩⟩ := exec_program_ends hc hq hready hwf hrange h
      · exact hwrote.leaves hpages hp (.inr hok) hcfg haddr hlength rfl fun _ _ => rfl
      · obtain ⟨hu, hin, hadv, hw⟩ := hfail.begun
        obtain ⟨-, -, hfront, hend⟩ := hpages.segment hu hw hin hadv rfl
        have hucfg := hfail.cfg.symm.trans hcfg
        have hsameaddr : t.regs.addr = u.regs.addr := congrArg (fun o => o.2.2.1) hfail.operands
        have hsamelen : t.regs.len = u.regs.len := congrArg (fun o => o.2.2.2) hfail.operands
        have huaddr := hsameaddr.symm.trans haddr
        have hulen := hsamelen.symm.trans hlength
        rw [hucfg, huaddr, hulen, ← hfront] at hend
        exact hwrote.leaves hpages hp (.inr (hu.clean hin).1) hucfg huaddr hulen hfail.completed (hend ▸ hfail.flash)
    · obtain ⟨r, e⟩ := hout hbv (Nat.not_le.1 hrange)
      obtain rfl := Host.Outcome.next.inj (e.symm.trans h)
      exact programLeaves_of_rejected rfl rfl
  · obtain ⟨r, e⟩ := hno (by simpa using hbv)
    obtain rfl := Host.Outcome.next.inj (e.symm.trans h)
    exact programLeaves_of_rejected rfl rfl

end

/-- Settles O31: no page ends past the request. -/
theorem programFrame : Obligations.ProgramFrame := by
  intro s t bv address length i hi hc hq hready hwf h
  rw [exec_eq_program hi] at h
  have hleaves := exec_program_leaves hc hq hready hwf h
  obtain ⟨hopened, hcond⟩ := onlyOpenAndCloseChangeTheLifecycle _ s t hq.2 (by simp [Instr.opcode])
    (by simp [Instr.opcode]) h
  refine ⟨fun a ha => hleaves.outside a (ha.imp_right fun hend => (min_le_left _ _).trans hend), ?_, hopened, hcond,
    exec_hc h, exec_cfg h, exec_resets_of_nil hq.2 h, exec_fsm hc h⟩
  refine (exec_keeps_of_exit (P := fun u => u.regs.op = 3 ∧ u.hb = s.hb) hq.2 h ⟨rfl, rfl⟩ ?_).2
  rintro u v e ⟨h3, hhb⟩
  exact ⟨e.op.trans h3, (e.hb (by simp [h3])).trans hhb⟩

/-! ### The segments of an ERASE -/

/-- The complete segments of an ERASE are the blocks from that of its address on. -/
structure State.BlocksCounted (s : State) : Prop where
  op       : s.regs.op = 4
  frontier : s.frontier = alignDownBlock s.cfg s.regs.addr + countCompleted s.trace * s.cfg.eraseGran

section
variable {s t : State}

theorem blocksCounted_accept (address length : Nat) (s : State) :
    (s.accept ((Instr.erase address length).load s.regs)).BlocksCounted where
  op := rfl
  frontier := by
    have hnone : countCompleted (s.accept ((Instr.erase address length).load s.regs)).trace = 0 := rfl
    rw [hnone, Nat.zero_mul]
    exact segmentStart_eraseStart s.cfg address

theorem State.TransferExit.blocksCounted (h : s.TransferExit t) (hs : s.Transfers) (e : s.Exit t)
    (hb : s.BlocksCounted) : t.BlocksCounted where
  op := e.op.trans hb.op
  frontier := by
    have hcount := h.completed (by simp [hb.op])
    rw [h.frontier hs e, hcount, e.cfg, e.addr, hb.frontier]
    by_cases hadv : t.fsm = .adv
    · obtain ⟨-, hm, -⟩ := h.segment_of_adv hs hadv
      rw [if_pos hadv, if_pos hadv, hm, hb.op, segmentLength_erase, Nat.succ_mul, Nat.add_assoc]
    · rw [if_neg hadv, if_neg hadv, Nat.add_zero]

/-- The array after an ERASE on a ready device: the complete blocks read as erased, and no byte before them or past the
block after them has changed. -/
structure State.EraseLeaves (address : Nat) (s t : State) : Prop where
  erased  : ∀ x, alignDownBlock s.cfg address ≤ x →
    x < alignDownBlock s.cfg address + countCompleted t.trace * s.cfg.eraseGran → t.flash.read x = erasedByte
  outside : ∀ x, x < alignDownBlock s.cfg address ∨
    alignDownBlock s.cfg address + (countCompleted t.trace + 1) * s.cfg.eraseGran ≤ x → t.flash.read x = s.flash.read x

/-- What an ERASE that has not failed has erased, and what has changed no byte but those of its next block. -/
theorem State.Erases.leaves {u : State} {address : Nat} (he : s.Erases u) (hb : u.BlocksCounted) (hok : u.Unfailed)
    (hcfg : u.cfg = s.cfg) (haddr : u.regs.addr = address) (hcount : countCompleted t.trace = countCompleted u.trace)
    (hsame : u.flash.SameOutside t.flash u.frontier s.cfg.eraseGran) : s.EraseLeaves address t := by
  have hfront := hb.frontier
  have herased := he.erased hok
  simp only [hcfg, haddr] at hfront herased
  rw [hfront] at hsame herased
  constructor <;> rw [hcount]
  · intro x hlow hhigh
    rw [hsame x (.inl hhigh), herased, if_pos ⟨hlow, hhigh⟩]
  · intro x hx
    rw [Nat.succ_mul] at hx
    rw [hsame x (by omega), herased, if_neg (by omega)]

/-- R160, R212: an ERASE outside the range is rejected. -/
theorem exec_erase_of_outOfRange {address length : Nat} (hq : s.quiet) (hout : s.cfg.totalSize < address + length) :
    ∃ r, exec (.erase address length) s =
      .next { s with regs := r, hr := some (Response.status .invalidAddress 0), trace := [] } := by
  refine exec_of_rejected hq rfl nofun ?_
  have hcheck : (s.accept ((Instr.erase address length).load s.regs)).visitCheck =
      (s.accept ((Instr.erase address length).load s.regs).clearLatch).checkErase := rfl
  rcases checkErase_cases (s.accept ((Instr.erase address length).load s.regs).clearLatch) with ⟨-, e⟩ | ⟨hin, -⟩
  · exact hcheck.trans e
  · exact absurd hin (Nat.not_le.2 hout)

theorem exec_erase_leaves {address length : Nat} (hc : s.cfg.wf = true) (hq : s.quiet) (hready : s.ready = true)
    (hwf : s.flash.wf) (h : exec (.erase address length) s = .next t) : s.EraseLeaves address t := by
  by_cases hrange : address + length ≤ s.cfg.totalSize
  · have hs : (s.accept ((Instr.erase address length).load s.regs)).Transfers :=
      transfers_accept hc (.inr (.inr rfl)) (not_rejected (.inr (.inr rfl)) (absurd rfl) hrange)
    obtain ⟨⟨-, -, haddr, -⟩, -⟩ := commandsChangeOnlyTheirRegisters _ s t hq.2 h
    have haddr : t.regs.addr = address := haddr
    obtain ⟨-, ⟨he, hb⟩, hok | ⟨u, ⟨he, hb⟩, hfail⟩⟩ := exec_ends_on_device
      (P := fun u => s.Erases u ∧ u.BlocksCounted) hq h hs hready (by simp [Instr.opcode])
      ⟨erases_accept hwf, blocksCounted_accept _ _ _⟩ (fun _ ⟨he, _⟩ hok => he.wf hok)
      fun _ _ hu e ht hw hd ⟨he, hb⟩ => ⟨ht.erases hu e hw hd he, ht.blocksCounted hu e hb⟩
    · exact he.leaves hb (.inr hok) (exec_cfg h) haddr rfl (.refl _ _ _)
    · obtain ⟨hu, hin, -, -⟩ := hfail.begun
      have hcfg := hfail.cfg.symm.trans (exec_cfg h)
      have hsize : u.segmentSize = s.cfg.eraseGran := by
        rw [State.segmentSize, hb.op, segmentLength_erase, hcfg]
      have hsameaddr : t.regs.addr = u.regs.addr := congrArg (fun o => o.2.2.1) hfail.operands
      exact he.leaves hb (.inr (hu.clean hin).1) hcfg (hsameaddr.symm.trans haddr) hfail.completed
        (hsize ▸ hfail.flash)
  · obtain ⟨r, e⟩ := exec_erase_of_outOfRange hq (Nat.not_le.1 hrange)
    obtain rfl := Host.Outcome.next.inj (e.symm.trans h)
    refine ⟨fun x hlow hhigh => ?_, fun _ _ => rfl⟩
    have hnone : x < alignDownBlock s.cfg address + 0 * s.cfg.eraseGran := hhigh
    omega

end

/-- Settles O60: what each of the two commands leaves, by the number of its complete segments. -/
theorem earlierSegmentsAreNotUndone : Obligations.EarlierSegmentsAreNotUndone := by
  intro s t address length hc hq hready hwf
  refine ⟨fun h => ?_, fun i bv hi h => ?_⟩
  · have hleaves := exec_erase_leaves hc hq hready hwf h
    exact ⟨hleaves.erased, fun a ha => hleaves.outside a (.inr ha)⟩
  · rw [exec_eq_program hi] at h
    have hleaves := exec_program_leaves hc hq hready hwf h
    exact ⟨hleaves.written, fun a ha => hleaves.outside a (.inr ((min_le_right _ _).trans ha))⟩

end Sys2Proof.Machine
end

section
/-! Layer 4: the trace of a PROGRAM that answers Ok is one group of calls for each page of its request (R151, R154). -/

namespace Sys2Proof.Machine

/-! ### The trace of a PROGRAM's complete segments -/

/-- R150: the calls of the `j`-th segment of a PROGRAM of `len` bytes at `a`, its poll having sampled the device busy
`k` times. -/
def programGroup (c : Config) (hb : List Byte) (a len j k : Nat) : List Prim :=
  [.bankSelect (translateBank c (pageStart c a j)) 0,
    .program (bufRead hb (pageStart c a j - a) (pageEnd c a len j - pageStart c a j)) (translatePa c (pageStart c a j))
      (pageEnd c a len j - pageStart c a j) 0] ++
    List.replicate k (.statusGet 0 true) ++ [.statusGet 0 false]

/-- R154: the trace of the first `j` segments of a PROGRAM, all complete. -/
inductive ProgramTrace (c : Config) (hb : List Byte) (a len : Nat) : Nat → List Prim → Prop
  | nil : ProgramTrace c hb a len 0 []
  | segment {j k : Nat} {tr : List Prim} : ProgramTrace c hb a len j tr → pageStart c a j < a + len →
      k < c.pollLimit → ProgramTrace c hb a len (j + 1) (tr ++ programGroup c hb a len j k)

section
variable {c : Config} {hb : List Byte} {a len j : Nat} {tr : List Prim}

theorem ProgramTrace.counts (h : ProgramTrace c hb a len j tr) :
    countBankSelects tr = j ∧ countMutations tr = j ∧ j ≤ countSamples tr ∧ countSamples tr ≤ j * c.pollLimit ∧
      tr.length = 2 * j + countSamples tr := by
  induction h with
  | nil => exact ⟨rfl, rfl, le_rfl, Nat.zero_le _, rfl⟩
  | @segment j k tr _ _ hk ih =>
    have hbanks : countBankSelects (programGroup c hb a len j k) = 1 := by
      simp [programGroup, countBankSelects, List.countP_replicate]
    have hmuts : countMutations (programGroup c hb a len j k) = 1 := by
      simp [programGroup, countMutations, List.countP_replicate]
    have hsamples : countSamples (programGroup c hb a len j k) = k + 1 := by
      simp [programGroup, countSamples, List.countP_replicate]
    have hlength : (programGroup c hb a len j k).length = k + 3 := by simp [programGroup]
    simp only [countBankSelects, countMutations, countSamples, List.countP_append, List.length_append] at *
    rw [Nat.succ_mul]
    omega

/-- R151: the calls of `program`, one for each segment. -/
theorem ProgramTrace.calls (h : ProgramTrace c hb a len j tr) :
    programCalls tr = (List.range j).map fun j =>
      (bufRead hb (pageStart c a j - a) (pageEnd c a len j - pageStart c a j), translatePa c (pageStart c a j),
        pageEnd c a len j - pageStart c a j) := by
  induction h with
  | nil => rfl
  | @segment j k tr _ _ _ ih =>
    rw [List.range_succ, List.map_append, ← ih]
    simp [programCalls, programGroup]

/-- R200: a poll moves the position on by its samples. -/
theorem position_samples {pollLimit : Nat} {i : Instr} {bv : Bool} {address length : Nat}
    (hi : i = .program bv address length ∨ i = .write bv address length) (n : Nat) {k : Nat} (hk : k + n ≤ pollLimit) :
    (List.replicate n (Prim.statusGet 0 true)).foldlM (i.callOrder pollLimit) (2 + k) = some (2 + k + n) := by
  induction n generalizing k with
  | zero => rfl
  | succ n ih =>
    have hstep : i.callOrder pollLimit (2 + k) (.statusGet 0 true) = some (2 + (k + 1)) := by
      have hin : 2 ≤ 2 + k ∧ 2 + k < 2 + pollLimit := by omega
      rcases hi with rfl | rfl <;> exact if_pos hin
    rw [List.replicate_succ, List.foldlM_cons, hstep]
    exact (ih (k := k + 1) (by omega)).trans (congrArg some (by omega))

/-- R154, R200: the calls of complete segments are in order, and end after a sample. -/
theorem ProgramTrace.position (h : ProgramTrace c hb a len j tr) {i : Instr} {bv : Bool} {address length : Nat}
    (hi : i = .program bv address length ∨ i = .write bv address length) :
    ∃ k, i.position c.pollLimit tr = some k ∧ (j = 0 ∧ k = 0 ∨ 3 ≤ k) := by
  induction h with
  | nil => exact ⟨0, rfl, .inl ⟨rfl, rfl⟩⟩
  | @segment j k tr _ _ hk ih =>
    obtain ⟨p, hp, hfirst⟩ := ih
    refine ⟨2 + k + 1, ?_, .inr (by omega)⟩
    have hsamples : (List.replicate k (Prim.statusGet 0 true)).foldlM (i.callOrder c.pollLimit) 2 = some (2 + k) :=
      position_samples hi k (k := 0) (by omega)
    have hstart : p = 0 ∨ 3 ≤ p := hfirst.imp_left And.right
    have hselect (b st : Nat) : i.callOrder c.pollLimit p (.bankSelect b st) = some 1 := by
      rcases hi with rfl | rfl <;> exact if_pos hstart
    have hprogram (src : List Byte) (pa n st : Nat) : i.callOrder c.pollLimit 1 (.program src pa n st) = some 2 := by
      rcases hi with rfl | rfl <;> rfl
    have hlast : i.callOrder c.pollLimit (2 + k) (.statusGet 0 false) = some (2 + k + 1) := by
      have hin : 2 ≤ 2 + k ∧ 2 + k < 2 + c.pollLimit := by omega
      rcases hi with rfl | rfl <;> exact if_pos hin
    unfold Instr.position at hp ⊢
    simp [programGroup, List.foldlM_append, hp, hselect, hprogram, hsamples, hlast]

/-- R151: a PROGRAM whose segments reach the end of its request has one for each page it touches. -/
theorem ProgramTrace.pages (hp : 0 < c.progGran) (h : ProgramTrace c hb a len j tr) (hlen : 0 < len)
    (hend : a + len ≤ pageStart c a j) : j = (a + len - 1) / c.progGran - a / c.progGran + 1 := by
  cases h with
  | nil =>
    rw [pageStart_zero] at hend
    omega
  | @segment j k tr _ hlt _ =>
    rw [pageStart_succ hp] at hend
    have hlow := (pageStart_le (c := c) (a := a) (j := j)).2
    have hdiv : (a + len - 1) / c.progGran = a / c.progGran + j :=
      Nat.div_eq_of_lt_le (by omega) (by omega)
    rw [hdiv]
    omega

end

/-! ### The trace along a PROGRAM -/

/-- The calls of the segment in progress. -/
def State.pendingCalls (s : State) : List Prim :=
  match s.fsm with
  | .seg | .xfer => [.bankSelect s.regs.bank 0]
  | .poll =>
    [.bankSelect s.regs.bank 0, .program (bufRead s.hb s.regs.bufOff s.regs.segLen) s.regs.pa s.regs.segLen 0] ++
      List.replicate (s.cfg.pollLimit - s.regs.pollCnt) (.statusGet 0 true)
  | _ => []

/-- What the trace of a PROGRAM that has not failed holds, whatever the device and the oracle: the calls of its complete
segments, and those of the one in progress. -/
structure State.ProgramsInOrder (s u : State) : Prop where
  hb    : u.hb = s.hb
  pages : u.PagesCounted
  trace : u.Unfailed → ∃ tr, ProgramTrace u.cfg s.hb u.regs.addr u.regs.len (countCompleted u.trace) tr ∧
    u.trace = tr ++ u.pendingCalls

theorem programsInOrder_accept {i : Instr} {s : State} (h3 : i.opcode = 3) :
    s.ProgramsInOrder (s.accept (i.load s.regs)) where
  hb := rfl
  pages := pagesCounted_accept h3
  trace := fun _ => ⟨[], .nil, rfl⟩

section
variable {s u v : State}

/-- R150: the calls of a segment whose poll has found the device idle. -/
theorem pendingCalls_of_complete (hu : u.Transfers) (hw : u.Walks) (h : s.ProgramsInOrder u) (hp : u.fsm = .poll) :
    pageStart u.cfg u.regs.addr (countCompleted u.trace) < u.regs.addr + u.regs.len ∧
      u.pendingCalls ++ [.statusGet 0 false] = programGroup u.cfg s.hb u.regs.addr u.regs.len
        (countCompleted u.trace) (u.cfg.pollLimit - u.regs.pollCnt) := by
  have hin : u.fsm.inLoop = true := by rw [hp]; rfl
  have hop : u.regs.op ≠ 4 := by simp [h.pages.op]
  obtain ⟨hcur, hlt, -, hend⟩ := h.pages.segment hu hw hin (by simp [hp]) rfl
  have hsize : u.regs.segLen = u.segmentSize := hu.loop.length (by rw [hp]; rfl)
  have hoff := hw.cursor hu hin hop
  have hbank := hu.loop.bank (by rw [hp]; rfl)
  have hpa := hu.loop.pa (by rw [hp]; rfl)
  rw [segmentStart_of_ne hop, hcur] at hbank hpa
  have hlen : u.regs.segLen = pageEnd u.cfg u.regs.addr u.regs.len (countCompleted u.trace) -
      pageStart u.cfg u.regs.addr (countCompleted u.trace) := by omega
  have hbuf : u.regs.bufOff = pageStart u.cfg u.regs.addr (countCompleted u.trace) - u.regs.addr := by omega
  refine ⟨hlt, ?_⟩
  rw [State.pendingCalls, hp, programGroup]
  simp only [hbank, hpa, hlen, hbuf, h.hb]

/-- A visit that completes no segment adds its call to those of the segment in progress. -/
theorem State.ProgramsInOrder.pending_of_not_adv (h : s.ProgramsInOrder u) (ht : u.TransferExit v) (hu : u.Transfers)
    (hadv : v.fsm ≠ .adv) (hok : v.Unfailed) :
    ∃ added, v.trace = u.trace ++ added ∧ v.pendingCalls = u.pendingCalls ++ added := by
  have h3 := h.pages.op
  cases ht
  case loads hx => exact ⟨[], by simp, by by_cases hz : u.regs.len = 0 <;> simp [State.pendingCalls, hx, hz]⟩
  case translates hx => exact ⟨[], by simp [State.visitXlate], by simp [State.pendingCalls, State.visitXlate, hx]⟩
  case selects hx h0 => exact ⟨[.bankSelect u.regs.bank 0], by simp [h0], by simp [State.pendingCalls, hx]⟩
  case measures hx => exact ⟨[], by simp [State.visitSeg], by simp [State.pendingCalls, State.visitSeg, hx]⟩
  case copies h2 => simp [h2] at h3
  case issues hx _ hm h0 =>
    cases hm
    case program => exact ⟨_, program_trace .., by simp [State.pendingCalls, hx, h0]⟩
    case erase hne => exact absurd h3 hne
  case completes => simp at hadv
  case pollsAgain hx h0 hb hcnt =>
    obtain ⟨-, -, hle⟩ := hu.loop.poll hx
    have hmore : u.cfg.pollLimit - (u.regs.pollCnt - 1) = u.cfg.pollLimit - u.regs.pollCnt + 1 := by omega
    exact ⟨[.statusGet 0 true], by simp [h0, hb], by simp [State.pendingCalls, hx, hmore, List.replicate_succ']⟩
  case advances hx =>
    refine ⟨[], by simp [State.visitAdv], ?_⟩
    simp only [State.pendingCalls, State.visitAdv, hx]
    split <;> split at * <;> simp_all
  case responds hx => exact ⟨[], by simp, by simp [State.pendingCalls, hx]⟩
  all_goals simp [State.Unfailed] at hok

theorem State.TransferExit.programsInOrder (h : u.TransferExit v) (hu : u.Transfers) (e : u.Exit v) (hw : u.Walks)
    (ho : s.ProgramsInOrder u) : s.ProgramsInOrder v where
  hb := (e.hb (by simp [ho.pages.op])).trans ho.hb
  pages := h.pagesCounted hu e hw ho.pages
  trace := fun hok => by
    obtain ⟨tr, htr, htrace⟩ := ho.trace (h.unfailed hu hok)
    have hcount := h.completed (by simp [ho.pages.op])
    rw [e.cfg, e.addr, e.len, hcount]
    by_cases hadv : v.fsm = .adv
    · rw [if_pos hadv]
      obtain ⟨-, h2, -⟩ | ⟨hp, hb, rfl⟩ := h.of_adv hadv
      · exact absurd h2 (by simp [ho.pages.op])
      · obtain ⟨hlt, hgroup⟩ := pendingCalls_of_complete hu hw ho hp
        obtain ⟨-, hcnt, hle⟩ := hu.loop.poll hp
        have h0 : u.nextStatus = 0 := by simpa [countCompleted, hb] using hcount
        have hnext := htr.segment hlt (Nat.sub_lt (hcnt.trans_le hle) hcnt)
        rw [← hgroup, ← List.append_assoc, ← htrace] at hnext
        exact ⟨_, hnext, by simp [State.pendingCalls, h0, hb]⟩
    · obtain ⟨added, hlog, hpend⟩ := ho.pending_of_not_adv h hu hadv hok
      rw [if_neg hadv, hlog, hpend, htrace, List.append_assoc]
      exact ⟨tr, htrace ▸ htr, rfl⟩

end

/-- A PROGRAM that answers Ok has the trace of its pages, whatever the device and the oracle (R151, R154). -/
theorem exec_program_trace {s t : State} {address length : Nat} {r : Response} (hc : s.cfg.wf = true) (hq : s.quiet)
    (hlen : 0 < length) (hrange : address + length ≤ s.cfg.totalSize)
    (h : exec (.program true address length) s = .next t) (hresp : t.hr = some r) (hkind : r.kind = .ok) :
    ∃ j, j = (address + length - 1) / s.cfg.progGran - address / s.cfg.progGran + 1 ∧
      ProgramTrace s.cfg s.hb address length j t.trace := by
  obtain ⟨-, -, -, hp, -⟩ := wf_facts hc
  have hidle := exec_fsm hc h
  have hcfg := exec_cfg h
  obtain ⟨haddr, hlength⟩ := exec_program_operands hq.2 h
  obtain ⟨hw, ho⟩ := exec_keeps_of_transfer (P := fun u => u.Walks ∧ s.ProgramsInOrder u) hq.2 h
    (transfers_program hc hrange) ⟨walks_accept _ _, programsInOrder_accept rfl⟩
    fun _ _ hu e ht ⟨hw, ho⟩ => ⟨ht.walks hu e hw, ht.programsInOrder hu e hw ho⟩
  have hok : t.regs.stKind = .ok := by
    obtain rfl : t.response = r := Option.some.inj ((exec_hr hc hq.2 h).symm.trans hresp)
    exact hkind
  obtain ⟨tr, htr, htrace⟩ := ho.trace (.inr hok)
  have hnone : t.pendingCalls = [] := by simp [State.pendingCalls, hidle]
  have hpages := ho.pages.frontier
  rw [hw.ended (.inr hidle) hok, transferEnd, if_neg (by simp [ho.pages.op])] at hpages
  rw [hcfg, haddr, hlength] at htr hpages
  rw [hnone, List.append_nil] at htrace
  rw [← htrace] at htr
  exact ⟨_, htr.pages hp hlen (by omega), htr⟩

/-- Settles O32: every group of calls is complete. -/
theorem programPollsEverySegment : Obligations.ProgramPollsEverySegment := by
  intro s t address length r i hi hc hq hlen hrange h hresp hkind
  rw [exec_eq_program hi] at h
  obtain ⟨j, hj, htr⟩ := exec_program_trace hc hq hlen hrange h hresp hkind
  obtain ⟨hbanks, hmuts, hmin, hmax, htotal⟩ := htr.counts
  obtain ⟨k, hk, hlast⟩ := htr.position hi
  rw [hbanks, hmuts]
  exact ⟨rfl, hmin, hmax, htotal, k, by omega, hk⟩

/-- Settles O33: the groups of calls are those of the pages, in order. -/
theorem programHasOneSegmentPerPage : Obligations.ProgramHasOneSegmentPerPage := by
  intro s t address length r i hi hc hq hlen hrange h hresp hkind
  rw [exec_eq_program hi] at h
  obtain ⟨j, hj, htr⟩ := exec_program_trace hc hq hlen hrange h hresp hkind
  obtain ⟨-, hmuts, -⟩ := htr.counts
  rw [hmuts]
  exact ⟨hj, htr.calls⟩

end Sys2Proof.Machine
end

section
/-! Layer 5: a PROGRAM cut at a page boundary is the two PROGRAMs one after the other (R152). The whole goes through the
states of its first part, and after it through those of its second, but for what the whole has besides. -/

namespace Sys2Proof.Machine

/-! ### A PROGRAM as a part of a longer one -/

/-- What a PROGRAM has besides a part of it: the trace before that part, its own buffer and operands, and the bytes of
the request before and after the part. -/
structure Whole where
  trace  : List Prim
  hb     : List Byte
  addr   : Nat
  len    : Nat
  before : Nat
  after  : Nat

/-- The registers of the whole, when its part has `r`. -/
def Regs.partOf (w : Whole) (r : Regs) : Regs :=
  { r with addr := w.addr, len := w.len, bufOff := r.bufOff + w.before, remaining := r.remaining + w.after }

/-- The state of the whole, when its part is in `s`. -/
def State.partOf (w : Whole) (s : State) : State :=
  { s with trace := w.trace ++ s.trace, hb := w.hb, regs := s.regs.partOf w }

section
variable (w : Whole) (s : State)

@[simp] theorem partOf_regs : (s.partOf w).regs = s.regs.partOf w := rfl
@[simp] theorem partOf_cfg : (s.partOf w).cfg = s.cfg := rfl
@[simp] theorem partOf_fsm : (s.partOf w).fsm = s.fsm := rfl
@[simp] theorem partOf_hb : (s.partOf w).hb = w.hb := rfl
@[simp] theorem partOf_inFlight : (s.partOf w).inFlight = s.inFlight := rfl
@[simp] theorem partOf_ready : (s.partOf w).ready = s.ready := rfl
@[simp] theorem partOf_nextStatus : (s.partOf w).nextStatus = s.nextStatus := rfl
@[simp] theorem partOf_drawn : (s.partOf w).drawn = s.drawn := rfl
@[simp] theorem partOf_goto (f : Fsm) : (s.partOf w).goto f = (s.goto f).partOf w := rfl
@[simp] theorem partOf_raise (k : Kind) (n : Nat) : (s.partOf w).raise k n = (s.raise k n).partOf w := rfl
@[simp] theorem partOf_startPoll : (s.partOf w).startPoll = s.startPoll.partOf w := rfl

@[simp] theorem partOf_log (p : Prim) : (s.partOf w).log p = (s.log p).partOf w := by
  simp [State.log, State.partOf]

@[simp] theorem partOf_late (d : Drawn) : (s.partOf w).late d = (s.late d).partOf w := by
  unfold State.late
  rw [partOf_inFlight]
  cases s.inFlight with
  | none => rfl
  | some f => cases f <;> rfl

@[simp] theorem partOf_settle (d : Drawn) : (s.partOf w).settle d = (s.settle d).partOf w := by
  unfold State.settle
  rw [partOf_inFlight]
  cases s.inFlight with
  | none => rfl
  | some f => cases d.ans.settled <;> rfl

@[simp] theorem partOf_called : (s.partOf w).called = s.called.partOf w := partOf_settle w s.draw s.drawn

@[simp] theorem partOf_sampleBusy : (s.partOf w).sampleBusy = s.sampleBusy := by
  rw [State.sampleBusy, partOf_called]
  rfl

@[simp] theorem partOf_statusGet : (s.partOf w).statusGet = s.statusGet.partOf w := by
  simp only [State.statusGet, partOf_called, partOf_nextStatus, partOf_sampleBusy, ← partOf_log]
  rfl

@[simp] theorem partOf_bankSelect (b : Nat) : (s.partOf w).bankSelect b = (s.bankSelect b).partOf w := by
  simp only [State.bankSelect, partOf_called, partOf_ready, ← partOf_log]
  split <;> rfl

@[simp] theorem partOf_program (src : List Byte) (pa n : Nat) :
    (s.partOf w).program src pa n = (s.program src pa n).partOf w := by
  simp only [State.program, partOf_called, partOf_ready, partOf_nextStatus, ← partOf_log]
  split
  · split <;> rfl
  · rfl

end

/-! ### The whole and its part side by side -/

/-- The part is given the whole's buffer from its own first byte on, and is its end or ends a page. -/
structure Whole.Covers (w : Whole) (s : State) : Prop where
  hb  : w.hb.drop w.before = s.hb
  cut : w.after = 0 ∨ (s.regs.addr + s.regs.len) % s.cfg.progGran = 0

section
variable {w : Whole} {s : State}

/-- R151: a segment of the part is one of the whole. -/
theorem segmentLength_partOf (hs : s.Transfers) (hw : s.Walks) (h3 : s.regs.op = 3) (hc : w.Covers s)
    (hin : s.fsm.inLoop = true) :
    segmentLength s.cfg s.regs.op s.regs.cursor (s.regs.remaining + w.after) =
      segmentLength s.cfg s.regs.op s.regs.cursor s.regs.remaining := by
  have hleft := (transferring_of_inLoop hs.loop hin).left
  have htotal := hw.total hin
  rw [transferStart, if_neg (by simp [h3])] at htotal
  rcases hc.cut with hnone | hcut
  · simp [hnone]
  · have hpage : remainPage s.cfg s.regs.cursor ≤ s.regs.remaining.toNat := by
      have hend := granule_end_le (x := s.regs.cursor) (Nat.dvd_of_mod_eq_zero hcut) (by omega)
      unfold remainPage
      omega
    have hlen (r : Int) (hr : remainPage s.cfg s.regs.cursor ≤ r.toNat) :
        segmentLength s.cfg s.regs.op s.regs.cursor r = remainPage s.cfg s.regs.cursor := by
      rw [h3]
      exact min_eq_right hr
    rw [hlen _ hpage, hlen _ (by omega)]

theorem visitBank_partOf (w : Whole) (s : State) : (s.partOf w).visitBank = s.visitBank.partOf w := by
  simp only [State.visitBank, partOf_regs, partOf_nextStatus, Regs.partOf, apply_ite (State.partOf w)]
  simp

theorem visitXfer_partOf (h3 : s.regs.op = 3) (hc : w.Covers s) : (s.partOf w).visitXfer = s.visitXfer.partOf w := by
  have hsrc : bufRead w.hb (s.regs.bufOff + w.before) s.regs.segLen = bufRead s.hb s.regs.bufOff s.regs.segLen := by
    rw [bufRead, bufRead, ← hc.hb, List.drop_drop, Nat.add_comm]
  simp only [State.visitXfer, State.xferProgram, partOf_regs, partOf_nextStatus, partOf_hb, Regs.partOf, h3, hsrc]
  simp only [if_true, if_neg (show ¬(3 : Opcode) = 2 by decide)]
  split <;> simp

theorem visitPoll_partOf (w : Whole) (s : State) : (s.partOf w).visitPoll = s.visitPoll.partOf w := by
  have hcount : ({ s.statusGet.partOf w with
      regs := { (s.statusGet.partOf w).regs with pollCnt := (s.statusGet.partOf w).regs.pollCnt - 1 } } : State) =
      State.partOf w { s.statusGet with regs := { s.statusGet.regs with pollCnt := s.statusGet.regs.pollCnt - 1 } } :=
    rfl
  simp only [State.visitPoll, partOf_statusGet, partOf_nextStatus, partOf_sampleBusy, partOf_drawn, hcount, partOf_late,
    apply_ite (State.partOf w)]
  rfl

/-- The whole goes on where its part ends. -/
theorem visitAdv_partOf (w : Whole) (h3 : s.regs.op = 3) :
    (s.partOf w).visitAdv = (s.visitAdv.partOf w).goto
      (if s.visitAdv.regs.remaining + w.after > 0 then .xlate else .resp) := by
  have hoff (n : Nat) : s.regs.bufOff + w.before + n = s.regs.bufOff + n + w.before := Nat.add_right_comm ..
  have hrem (n : Int) : s.regs.remaining + w.after - n = s.regs.remaining - n + w.after := by omega
  simp [State.visitAdv, State.partOf, Regs.partOf, State.goto, hoff, hrem, h3]

/-- As long as the part has not ended, the whole makes its visits. -/
theorem visit_partOf (hs : s.Transfers) (hw : s.Walks) (h3 : s.regs.op = 3) (hc : w.Covers s) (hf : s.fsm ≠ .check)
    (hmore : s.fsm = .adv → 0 < s.visitAdv.regs.remaining) : (s.partOf w).visit = s.visit.partOf w := by
  have hlife := hs.lifecycle
  unfold State.visit
  rw [partOf_fsm]
  cases hx : s.fsm
  case check => exact absurd hx hf
  case idle => rfl
  case xlate => rfl
  case bank => exact visitBank_partOf w s
  case seg =>
    have hlen := segmentLength_partOf hs hw h3 hc (by rw [hx]; rfl)
    simp only [State.visitSeg, partOf_regs, partOf_cfg, Regs.partOf, hlen]
    rfl
  case xfer => exact visitXfer_partOf h3 hc
  case poll => exact visitPoll_partOf w s
  case adv =>
    have hleft := hmore hx
    have hgoes : s.visitAdv.fsm = .xlate := if_pos hleft
    change (s.partOf w).visitAdv = s.visitAdv.partOf w
    rw [visitAdv_partOf w h3, if_pos (by omega), ← hgoes]
    rfl
  case resp => rfl
  all_goals simp [hx, Fsm.inLifecycle] at hlife

end

/-! ### Along the part -/

/-- Where the whole goes on when its part has ended with Ok in `s`. -/
def State.resume (w : Whole) (s : State) : State :=
  { (s.partOf w).goto (if w.after = 0 then .resp else .xlate) with hr := none }

/-- The registers of a PROGRAM that has answered Ok. -/
structure Regs.AtEnd (r : Regs) : Prop where
  cursor    : r.cursor = r.addr + r.len
  bufOff    : r.bufOff = r.len
  remaining : r.remaining = 0
  stInfo    : r.stInfo = 0

/-- The whole, accepted in `x`, goes through the states of its part up to that in `s`, but for its end with Ok. -/
structure State.Follows (x : State) (w : Whole) (s : State) : Prop where
  op       : s.regs.op = 3
  covers   : w.Covers s
  hr       : s.fsm ≠ .idle → s.hr = none
  accepted : s.fsm = .check →
    ∃ n, x.run n = (s.visit.partOf w).goto (if s.regs.len + w.after = 0 then .resp else .xlate)
  running  : s.fsm ≠ .check → s.fsm.inLoop = true ∨ s.regs.stKind ≠ .ok → ∃ n, x.run n = s.partOf w
  ended    : s.fsm = .resp ∨ s.fsm = .idle → s.regs.stKind = .ok →
    s.regs.AtEnd ∧ ∃ n, x.run n = s.resume w

section
variable {w : Whole} {x s t : State}

theorem run_visit {n : Nat} {y : State} (hr : x.resets = []) (h : x.run n = y) (hi : y.fsm ≠ .idle) :
    x.run (n + 1) = y.visit := by
  subst h
  rw [run_add, run_succ hi, run_zero, tick_of_noReset (run_resets_of_nil hr n)]

/-- A response is given in `S_RESP` only. -/
theorem State.TransferExit.hr (h : s.TransferExit t) (ht : t.fsm ≠ .idle) : t.hr = s.hr := by
  cases h
  case issues hm _ | issueFails hm _ => cases hm <;> simp
  case responds => simp at ht
  case copies => simp [State.xferRead]
  all_goals simp [State.visitXlate, State.visitSeg, State.visitAdv]

/-- The last segment of a PROGRAM takes `remaining` to zero. -/
theorem visitAdv_atEnd (hs : s.Transfers) (hw : s.Walks) (h3 : s.regs.op = 3) (hf : s.fsm = .adv)
    (hlast : ¬0 < s.visitAdv.regs.remaining) : s.visitAdv.regs.AtEnd := by
  have hin : s.fsm.inLoop = true := by rw [hf]; rfl
  have hop : s.regs.op ≠ 4 := by simp [h3]
  obtain ⟨htr, hm⟩ := transferring_measured_of_adv hf hs.loop
  have hle := advanceStep_le_remaining htr hm hop
  have htotal := hw.total hin
  have hbuf := htr.buffer hop
  obtain ⟨-, hinfo⟩ := hs.clean hin
  rw [transferStart, if_neg hop] at htotal
  simp only [State.visitAdv] at hlast
  constructor <;> simp only [State.visitAdv, if_neg hop]
  · omega
  · omega
  · omega
  · exact hinfo

theorem State.TransferExit.of_check (h : s.TransferExit t) (hf : s.fsm = .check) :
    t = { s with regs := s.loadedRegs, fsm := if s.regs.len = 0 then .resp else .xlate } := by
  cases h
  case loads => rfl
  all_goals simp_all

/-- What goes on or has failed after a visit did so before it. -/
theorem State.TransferExit.of_going (h : s.TransferExit t) (hf : s.fsm ≠ .check)
    (hgo : t.fsm.inLoop = true ∨ t.regs.stKind ≠ .ok) : s.fsm.inLoop = true ∨ s.regs.stKind ≠ .ok := by
  cases h
  case responds => exact hgo.elim nofun .inr
  all_goals simp_all [Fsm.inLoop]

theorem resume_of_pending (w : Whole) (hhr : s.hr = none) :
    s.resume w = (s.partOf w).goto (if w.after = 0 then .resp else .xlate) := by
  rw [State.resume, ← hhr]
  rfl

/-- While the part has not ended with Ok, the whole makes its visits. -/
theorem State.Follows.running_visit (h : x.Follows w s) (hr : x.resets = []) (hs : s.Transfers) (hw : s.Walks)
    (hi : s.fsm ≠ .idle) (hgo : s.visit.fsm.inLoop = true ∨ s.visit.regs.stKind ≠ .ok) :
    ∃ n, x.run n = s.visit.partOf w := by
  by_cases hc : s.fsm = .check
  · obtain ⟨n, hn⟩ := h.accepted hc
    have hload := ((visit_exit s).transfer hs hi).of_check hc
    have hlen : s.regs.len ≠ 0 := fun hz => by
      rw [hload, if_pos hz] at hgo
      exact hgo.elim nofun fun hk => hk rfl
    refine ⟨n, hn.trans ?_⟩
    rw [hload, if_neg hlen, if_neg (by omega)]
    rfl
  · obtain ⟨n, hn⟩ := h.running hc (((visit_exit s).transfer hs hi).of_going hc hgo)
    refine ⟨n + 1, (run_visit hr hn hi).trans (visit_partOf hs hw h.op h.covers hc fun hx => ?_)⟩
    have hv : s.visit = s.visitAdv := by rw [State.visit, hx]
    by_contra hlast
    rw [hv] at hgo
    have hout : s.visitAdv.fsm = .resp := if_neg hlast
    exact hgo.elim (by simp [hout, Fsm.inLoop]) fun hk => hk (hs.clean (by rw [hx]; rfl)).1

/-- Where the part ends with Ok, the whole goes on. -/
theorem State.Follows.ended_visit (h : x.Follows w s) (hr : x.resets = []) (hs : s.Transfers) (hw : s.Walks)
    (hi : s.fsm ≠ .idle) (hend : s.visit.fsm = .resp ∨ s.visit.fsm = .idle) (hok : s.visit.regs.stKind = .ok) :
    s.visit.regs.AtEnd ∧ ∃ n, x.run n = s.visit.resume w := by
  have hhr := h.hr hi
  have ht := (visit_exit s).transfer hs hi
  generalize hv : s.visit = t at *
  cases ht
  case loads hc =>
    have hz : s.regs.len = 0 := by
      by_contra hz
      simp [hz] at hend
    obtain ⟨n, hn⟩ := h.accepted hc
    refine ⟨?_, n, hn.trans ?_⟩
    · constructor <;> simp [State.loadedRegs, transferStart, Regs.start, Regs.clearLatch, h.op, hz]
    · rw [hv, hz, Nat.zero_add]
      exact (resume_of_pending (s := { s with regs := s.loadedRegs, fsm := _ }) w hhr).symm
  case advances hx =>
    have hlast : ¬0 < s.visitAdv.regs.remaining := fun hmore => by
      have hgoes : s.visitAdv.fsm = .xlate := if_pos hmore
      simp [hgoes] at hend
    have hat := visitAdv_atEnd hs hw h.op hx hlast
    obtain ⟨n, hn⟩ := h.running (by simp [hx]) (.inl (by rw [hx]; rfl))
    refine ⟨hat, n + 1, (run_visit hr hn hi).trans ?_⟩
    have hwhole : (s.partOf w).visit = (s.partOf w).visitAdv := by rw [State.visit, partOf_fsm, hx]
    rw [hwhole, visitAdv_partOf w h.op, hat.remaining, resume_of_pending w (s := s.visitAdv) hhr]
    by_cases hz : w.after = 0 <;> simp [hz, Nat.pos_of_ne_zero]
  case responds hx =>
    obtain ⟨hat, n, hn⟩ := h.ended (.inl hx) hok
    exact ⟨hat, n, hn⟩
  all_goals simp_all [State.visitXlate, State.visitSeg, State.xferRead]

theorem State.Follows.visit (h : x.Follows w s) (hr : x.resets = []) (hs : s.Transfers) (hw : s.Walks)
    (hi : s.fsm ≠ .idle) : x.Follows w s.visit where
  op := (visit_exit s).op.trans h.op
  covers := by
    have e := visit_exit s
    exact ⟨h.covers.hb.trans (e.hb (by simp [h.op])).symm, by rw [e.addr, e.len, e.cfg]; exact h.covers.cut⟩
  hr := fun hv => (((visit_exit s).transfer hs hi).hr hv).trans (h.hr hi)
  accepted := fun hf => absurd hf (visit_fsm_ne_check s)
  running := fun _ => h.running_visit hr hs hw hi
  ended := h.ended_visit hr hs hw hi

/-- The whole follows its part to the end. -/
theorem exec_follows {i : Instr} (hq : s.quiet) (h : exec i s = .next t)
    (hs : (s.accept (i.load s.regs)).Transfers) (hr : x.resets = []) (hx : x.Follows w (s.accept (i.load s.regs))) :
    x.Follows w t := by
  obtain ⟨-, hr'⟩ := hq
  refine (exec_keeps_of_visit (P := fun u => u.Transfers ∧ u.Walks ∧ x.Follows w u) hr' h ⟨hs, walks_accept _ _, hx⟩
    fun u hi ⟨hu, hw, hf⟩ => ?_).2.2
  have e := visit_exit u
  exact ⟨e.transfers hu hi, (e.transfer hu hi).walks hu e hw, hf.visit hr hu hw hi⟩

/-- A run from `x` becomes idle in one state only. -/
theorem run_eq_of_idle {m n : Nat} (hm : (x.run m).fsm = .idle) (hn : (x.run n).fsm = .idle) : x.run m = x.run n := by
  rw [← run_of_idle hm n, ← run_add, Nat.add_comm, run_add, run_of_idle hn]

/-- A part that ends the whole ends with it. -/
theorem State.Follows.run_of_last (h : x.Follows w t) (hr : x.resets = []) (hlast : w.after = 0) (hf : t.fsm = .idle)
    (hhr : t.hr = some t.response) : ∃ n, x.run n = t.partOf w := by
  by_cases hok : t.regs.stKind = .ok
  · obtain ⟨-, n, hn⟩ := h.ended (.inr hf) hok
    have hresp : (t.resume w).fsm = .resp := if_pos hlast
    refine ⟨n + 1, (run_visit hr hn (by simp [hresp])).trans ?_⟩
    rw [State.visit, hresp]
    change { t.partOf w with hr := some t.response, fsm := .idle } = t.partOf w
    rw [← hhr, ← hf]
    rfl
  · exact h.running (by simp [hf]) (.inr hok)

end

/-! ### The two parts of a PROGRAM -/

section
variable {s t : State} {address k rest : Nat}

/-- The whole of a PROGRAM and its first part. -/
def firstPart (s : State) (address k rest : Nat) : Whole := ⟨[], s.hb, address, k + rest, 0, rest⟩

/-- The whole of a PROGRAM and its second part, the first having ended in `t`. -/
def secondPart (s t : State) (address k rest : Nat) : Whole := ⟨t.trace, s.hb, address, k + rest, k, 0⟩

/-- The registers of a PROGRAM that has passed validation. -/
def Regs.checkedProgram (address length : Nat) (r : Regs) : Regs :=
  { r with
    op := 3, bufValid := true, addr := address, len := length, cursor := address, bufOff := 0, remaining := length
    stKind := .ok, stInfo := 0, value := 0 }

theorem visit_program_accepted {length : Nat} (hrange : address + length ≤ s.cfg.totalSize) :
    (s.accept ((Instr.program true address length).load s.regs)).visit =
      (s.accept (s.regs.checkedProgram address length)).goto (if length = 0 then .resp else .xlate) :=
  visitCheck_of_valid (s := s.accept ((Instr.program true address length).load s.regs)) (.inr (.inl rfl))
    (fun _ => rfl) hrange

/-- The whole starts as its first part does. -/
theorem follows_firstPart (hq : s.quiet) (hcut : (address + k) % s.cfg.progGran = 0)
    (hrange : address + (k + rest) ≤ s.cfg.totalSize) :
    (s.accept ((Instr.program true address (k + rest)).load s.regs)).Follows (firstPart s address k rest)
      (s.accept ((Instr.program true address k).load s.regs)) where
  op := rfl
  covers := ⟨rfl, .inr hcut⟩
  hr := fun _ => rfl
  accepted := fun _ => by
    refine ⟨1, ?_⟩
    rw [run_succ (by simp), run_zero, tick_of_noReset (s := s.accept _) hq.2, visit_program_accepted hrange,
      visit_program_accepted (by omega)]
    simp [State.partOf, State.goto, firstPart, Regs.partOf, Regs.checkedProgram, State.accept, Instr.load]
  running := fun h => absurd rfl h
  ended := nofun

/-- The whole goes on as its second part does. -/
theorem follows_secondPart {x : State} {n : Nat} (hat : t.regs.AtEnd) (hok : t.regs.stKind = .ok)
    (hvalue : t.regs.value = 0) (hops : t.regs.operands = (3, true, address, k))
    (hrange : address + (k + rest) ≤ t.cfg.totalSize) (hx : x.run n = t.resume (firstPart s address k rest)) :
    x.Follows (secondPart s t address k rest)
      (State.accept ((Instr.program true (address + k) rest).load t.regs) { t with hb := s.hb.drop k }) where
  op := rfl
  covers := ⟨rfl, .inl rfl⟩
  hr := fun _ => rfl
  accepted := fun _ => by
    refine ⟨n, hx.trans ?_⟩
    rw [visit_program_accepted (s := { t with hb := s.hb.drop k }) (by simpa [Nat.add_assoc] using hrange)]
    obtain ⟨hcur, hoff, hrem, hinfo⟩ := hat
    simp only [Regs.operands, Prod.mk.injEq] at hops
    obtain ⟨hop, hbuf, haddr, hlen⟩ := hops
    by_cases hz : rest = 0 <;> simp [State.resume, State.partOf, State.goto, firstPart, secondPart, Regs.partOf,
      Regs.checkedProgram, State.accept, Instr.load, hz, hcur, hoff, hrem, hinfo, hop, hbuf, haddr, hlen, hok, hvalue]
  running := fun h => absurd rfl h
  ended := nofun

/-- The second part runs on what the first has left, and the whole ends with it. -/
theorem exec_secondPart {x : State} {n : Nat} (hc : t.cfg.wf = true) (hq : t.quiet) (hx : x.resets = [])
    (hat : t.regs.AtEnd) (hok : t.regs.stKind = .ok) (hvalue : t.regs.value = 0)
    (hops : t.regs.operands = (3, true, address, k)) (hrange : address + (k + rest) ≤ t.cfg.totalSize)
    (hlen : k + rest ≤ s.hb.length) (hn : x.run n = t.resume (firstPart s address k rest)) :
    ∃ t2, exec (.program true (address + k) rest) { t with hb := s.hb.drop k } = .next t2 ∧ t2.fsm = .idle ∧
      ∃ m, x.run m = t2.partOf (secondPart s t address k rest) := by
  obtain ⟨u, hu⟩ : ∃ u : State, { t with hb := s.hb.drop k } = u := ⟨_, rfl⟩
  have hstart := follows_secondPart hat hok hvalue hops hrange hn
  rw [hu] at hstart ⊢
  obtain ⟨hcfg, hregs, hhb⟩ : u.cfg = t.cfg ∧ u.regs = t.regs ∧ u.hb = s.hb.drop k := by
    rw [← hu]
    exact ⟨rfl, rfl, rfl⟩
  have hqu : u.quiet := hu ▸ hq
  rw [← hcfg] at hc hrange
  rw [← hregs] at hstart
  have hfits : u.bufferFits (.program true (address + k) rest) = true := by
    simp [State.bufferFits, bufferTooShort_of_le (s := u) (length := rest) (by rw [hhb, List.length_drop]; omega)]
  obtain ⟨t2, h2⟩ : ∃ t2, exec (.program true (address + k) rest) u = .next t2 := ⟨_, exec_of_idle hfits hqu.1⟩
  have hidle := exec_fsm hc h2
  have hfollows := exec_follows hqu h2 (transfers_program hc (by rwa [Nat.add_assoc])) hx hstart
  exact ⟨t2, h2, hidle, hfollows.run_of_last hx rfl hidle (exec_hr hc hqu.2 h2)⟩

end

/-- Settles O34: the whole follows its first part, and from its end with Ok on the second. -/
theorem splitProgramIsTransparent : Obligations.SplitProgramIsTransparent := by
  intro s t t1 address k rest hc hq hcut hrange h h1
  have hidle := exec_fsm hc h
  have hidle1 := exec_fsm hc h1
  obtain ⟨-, -, ht⟩ := exec_next h
  have hfollows := exec_follows hq h1 (transfers_program hc (by omega)) (x := s.accept _) hq.2
    (follows_firstPart hq hcut hrange)
  have hhr1 := exec_hr hc hq.2 h1
  have hserves := exec_serves hc hq.2 h1
  have hvalue : t1.regs.value = 0 := hserves.value (by simp [hidle1]) (.inl (by simp [Instr.opcode]))
  have hops : t1.regs.operands = (3, true, address, k) := by
    obtain ⟨⟨hop, hbuf, haddr, hlen⟩, -⟩ := commandsChangeOnlyTheirRegisters _ s t1 hq.2 h1
    rw [Regs.operands, hop, hbuf, haddr, hlen]
    rfl
  have hsame {n : Nat} {y : State} (hn : (s.accept ((Instr.program true address (k + rest)).load s.regs)).run n = y)
      (hy : y.fsm = .idle) : t = y := by
    rw [← hn, ht]
    exact run_eq_of_idle (ht ▸ hidle) (hn ▸ hy)
  by_cases hok : t1.regs.stKind = .ok
  · obtain ⟨hat, n, hn⟩ := hfollows.ended (.inr hidle1) hok
    have hresp := response_of_clean ⟨hok, hat.stInfo⟩ hvalue (by simp [hserves.op, Instr.opcode])
    refine ⟨fun hno => absurd (hhr1.trans (congrArg some hresp)) hno, fun _ => ?_⟩
    have hcfg := exec_cfg h1
    obtain ⟨t2, h2, hidle2, m, hm⟩ := exec_secondPart (hcfg ▸ hc) ⟨hidle1, exec_resets_of_nil hq.2 h1⟩ (x := s.accept _)
      hq.2 hat hok hvalue hops (hcfg ▸ hrange) (length_le_of_exec_program hrange h) hn
    obtain rfl := hsame hm hidle2
    exact ⟨t2, h2, rfl, rfl, rfl, rfl, rfl⟩
  · obtain ⟨n, hn⟩ := hfollows.running (by simp [hidle1]) (.inr hok)
    obtain rfl := hsame hn hidle1
    refine ⟨fun _ => ⟨rfl, rfl, rfl⟩, fun hyes => absurd ?_ hok⟩
    exact congrArg Response.kind (Option.some.inj (hhr1.symm.trans hyes))

end Sys2Proof.Machine
end

section
/-! Settling the statements of spec/44_erase.md, layer 1: ERASE on a ready device whose calls succeed and finish clears
exactly its blocks (R160, R162, R165, R167), and outside the range it changes nothing (R212). -/

namespace Sys2Proof.Machine

/-! ### ERASE outside the range -/

/-- Settles O23: `S_CHECK` rejects the range. -/
theorem eraseOutOfRangeChangesNothing : Obligations.EraseOutOfRangeChangesNothing := by
  intro s address length hq hout
  exact exec_erase_of_outOfRange hq hout

/-! ### The blocks along an ERASE -/

/-- Two ranges erased one after the other, the second starting where the first ends, are one. -/
theorem Memory.eraseRange_append (m : Memory) (a n k : Nat) :
    (m.eraseRange a n).eraseRange (a + n) k = m.eraseRange a (n + k) := by
  simp only [Memory.eraseRange, List.filter_filter]
  refine List.filter_congr fun c _ => ?_
  rw [Bool.eq_iff_iff]
  simp
  omega

theorem Memory.eraseRange_zero (m : Memory) (a : Nat) : m.eraseRange a 0 = m := by
  refine List.filter_eq_self.2 fun c _ => ?_
  simp
  omega

/-- What an ERASE of a ready device that has not failed has done: it has erased the blocks it has counted, and called
`erase_block` once for each of them and once for the block it polls for. -/
structure State.ClearsBlocks (s u : State) : Prop where
  blocks : u.BlocksCounted
  flash  : u.Unfailed →
    u.flash = s.flash.eraseRange (alignDownBlock u.cfg u.regs.addr) (countCompleted u.trace * u.cfg.eraseGran)
  calls  : u.Unfailed → countMutations u.trace = countCompleted u.trace + if u.fsm = .poll then 1 else 0

theorem clearsBlocks_accept (address length : Nat) (s : State) :
    s.ClearsBlocks (s.accept ((Instr.erase address length).load s.regs)) where
  blocks := blocksCounted_accept address length s
  flash := fun _ => by
    have hnone : countCompleted (s.accept ((Instr.erase address length).load s.regs)).trace = 0 := rfl
    rw [hnone, Nat.zero_mul, Memory.eraseRange_zero]
    rfl
  calls := fun _ => rfl

section
variable {s u v : State}

/-- A visit calls `program` or `erase_block` on its way into the poll only. -/
theorem State.TransferExit.mutations (h : u.TransferExit v) (h2 : u.regs.op ≠ 2) (hok : v.Unfailed) :
    countMutations v.trace = countMutations u.trace + if u.fsm = .xfer then 1 else 0 := by
  cases h
  case copies h2' => exact absurd h2' h2
  case issues hx _ hm _ => cases hm <;> simp [countMutations, hx]
  case completes hp _ _ => simp [countMutations, hp]
  case pollsAgain hp _ _ _ => simp [countMutations, hp]
  all_goals simp_all [countMutations, State.Unfailed, State.visitXlate, State.visitSeg, State.visitAdv]

/-- The poll is entered from `S_XFER`, and left for `S_ADV` unless it goes on or fails. -/
theorem State.TransferExit.poll_iff (h : u.TransferExit v) (h2 : u.regs.op ≠ 2) (hok : v.Unfailed) :
    v.fsm = .poll ↔ u.fsm = .xfer ∨ u.fsm = .poll ∧ v.fsm ≠ .adv := by
  cases h
  case loads hf => by_cases hz : u.regs.len = 0 <;> simp [hf, hz]
  case copies h2' => exact absurd h2' h2
  case advances hf => simp only [State.visitAdv]; split <;> simp [hf]
  all_goals simp_all [State.Unfailed, State.visitXlate, State.visitSeg]

theorem State.TransferExit.clearsBlocks {bank : Nat} (h : u.TransferExit v) (hu : u.Transfers) (e : u.Exit v)
    (hd : u.OnDevice bank) (hs : s.ClearsBlocks u) : s.ClearsBlocks v := by
  have h4 := hs.blocks.op
  have h2 : u.regs.op ≠ 2 := by simp [h4]
  have hcount := h.completed h2
  refine ⟨h.blocksCounted hu e hs.blocks, fun hok => ?_, fun hok => ?_⟩
  · have hbefore := hs.flash (h.unfailed hu hok)
    rw [h.flash hu hd h2 hok, hcount, e.cfg, e.addr]
    by_cases hadv : v.fsm = .adv
    · obtain ⟨-, hm, hcur⟩ := h.segment_of_adv hu hadv
      have hfront := hs.blocks.frontier
      rw [State.frontier, hcur] at hfront
      have hseg : u.segmentFlight = .erase (alignDownBlock u.cfg u.regs.addr +
          countCompleted u.trace * u.cfg.eraseGran) u.cfg.eraseGran := by
        rw [State.segmentFlight, if_neg (by simp [h4]), hfront, hm, h4, segmentLength_erase]
      rw [if_pos hadv, if_pos hadv, hseg, InFlight.complete, hbefore, Memory.eraseRange_append, Nat.succ_mul]
    · rw [if_neg hadv, if_neg hadv, Nat.add_zero, hbefore]
  · have hbefore := hs.calls (h.unfailed hu hok)
    rw [h.mutations h2 hok, hcount, hbefore, if_congr (h.poll_iff h2 hok) rfl rfl]
    by_cases hadv : v.fsm = .adv
    · obtain ⟨-, hread, -⟩ | ⟨hp, -⟩ := h.of_adv hadv
      · exact absurd hread h2
      · simp [hadv, hp]
    · by_cases hx : u.fsm = .xfer
      · simp [hadv, hx]
      · simp [hadv, hx]

end

/-! ### The whole command -/

section
variable {s t : State} {address length : Nat}

/-- An ERASE inside the device passes validation. -/
theorem transfers_erase (hc : s.cfg.wf = true) (hrange : address + length ≤ s.cfg.totalSize) :
    (s.accept ((Instr.erase address length).load s.regs)).Transfers :=
  transfers_accept hc (.inr (.inr rfl)) (not_rejected (.inr (.inr rfl)) (absurd rfl) hrange)

/-- R160: ERASE has no buffer. -/
theorem exec_erase_hb (hq : s.quiet) (h : exec (.erase address length) s = .next t) : t.hb = s.hb := by
  refine (exec_keeps_of_exit (P := fun u => u.regs.op = 4 ∧ u.hb = s.hb) hq.2 h ⟨rfl, rfl⟩ ?_).2
  rintro u v e ⟨h4, hhb⟩
  exact ⟨e.op.trans h4, (e.hb (by simp [h4])).trans hhb⟩

theorem exec_erase_lifecycle (hq : s.quiet) (h : exec (.erase address length) s = .next t) :
    t.opened = s.opened ∧ t.condition = s.condition :=
  onlyOpenAndCloseChangeTheLifecycle _ s t hq.2 (by simp [Instr.opcode]) (by simp [Instr.opcode]) h

/-- R160, R165, R167, R31: what an ERASE of a ready device whose calls succeed and finish leaves: an Ok, the blocks of
its mode's accounting erased with a call for each, and the bank of the last one selected. -/
structure State.ErasedBlocks (address length : Nat) (s t : State) : Prop where
  finishes : s.Finishes (.erase address length) 0 t
  blocks   : alignDownBlock s.cfg address + countMutations t.trace * s.cfg.eraseGran = eraseEnd s.cfg address length
  flash    : t.flash = s.flash.eraseRange (alignDownBlock s.cfg address) (countMutations t.trace * s.cfg.eraseGran)
  bank     : t.activeBank =
    if length = 0 then s.activeBank else translateBank s.cfg (eraseEnd s.cfg address length - 1)

theorem exec_erase_blocks (hc : s.cfg.wf = true) (hq : s.quiet) (hready : s.ready = true)
    (hsucc : s.allSucceed (callBound s.cfg length)) (hfin : s.healthy (callBound s.cfg length))
    (hrange : address + length ≤ s.cfg.totalSize) :
    ∃ t, exec (.erase address length) s = .next t ∧ s.ErasedBlocks address length t := by
  obtain ⟨t, h⟩ : ∃ t, exec (.erase address length) s = .next t := ⟨_, exec_of_idle rfl hq.1⟩
  have hs := transfers_erase hc hrange
  have hend := exec_finishes (m := 0) hq h hs hready (favoured_accept hsucc fun _ => hfin)
  obtain ⟨-, hd, hblocks, hflash, hcalls⟩ := exec_keeps_on_device (P := s.ClearsBlocks) hq h hs hready
    (clearsBlocks_accept address length s) fun _ _ hu e ht _ hd hb => ht.clearsBlocks hu e hd hb
  obtain ⟨hidle, -⟩ := hend.quiet
  have haddr : t.regs.addr = address := hend.addr
  have hlength : t.regs.len = length := hend.len
  have hfront : t.frontier = eraseEnd s.cfg address length := hend.frontier
  have hcalls := hcalls (.inr hend.ok)
  rw [if_neg (by simp [hidle]), Nat.add_zero] at hcalls
  have hlast := hblocks.frontier
  have hcleared := hflash (.inr hend.ok)
  have hbank := hd.ended (.inr hidle) hend.ok
  rw [← hcalls, haddr, hend.cfg] at hlast hcleared
  rw [hlength, hfront, hend.cfg] at hbank
  exact ⟨t, h, hend, hlast.symm.trans hfront, hcleared, hbank⟩

/-- R120: a block lies in one bank. -/
theorem translateBank_block_end {c : Config} (hc : c.wf = true) {block : Nat} (hb : c.eraseGran ∣ block) :
    translateBank c (block + c.eraseGran - 1) = translateBank c block := by
  obtain ⟨-, -, -, hbank⟩ := granulesNeverSpanTwoBanks c block hc
  rw [alignDownBlock, Nat.div_mul_cancel hb] at hbank
  exact hbank.symm

end

/-- Settles O35: the blocks end where the accounting of the mode does. -/
theorem eraseClearsWholeBlocks : Obligations.EraseClearsWholeBlocks := by
  intro s address length hc hmode hq hready hsucc hfin hrange
  obtain ⟨t, h, hend, hblocks, hflash, hbank⟩ := exec_erase_blocks hc hq hready hsucc hfin hrange
  obtain ⟨hopened, hcond⟩ := exec_erase_lifecycle hq h
  obtain ⟨hidle, hresets⟩ := hend.quiet
  obtain ⟨-, -, hflight⟩ := (ready_iff t).1 hend.ready
  obtain ⟨-, -, -, -, he, -⟩ := wf_facts hc
  have hlast : eraseEnd s.cfg address length =
      alignDownBlock s.cfg address + ceilDiv length s.cfg.eraseGran * s.cfg.eraseGran := by simp only [eraseEnd, hmode]
  have hcount : countMutations t.trace = ceilDiv length s.cfg.eraseGran := by
    rw [hlast] at hblocks
    exact Nat.eq_of_mul_eq_mul_right he (Nat.add_left_cancel hblocks)
  rw [hcount] at hflash
  refine ⟨t, h, hend.hr, fun a => by rw [hflash, Memory.read_eraseRange], hcount, ?_, exec_erase_hb hq h, hflight,
    hidle, hopened, hcond, exec_hc h, hend.cfg, hresets⟩
  rw [hbank, hlast]
  refine ite_congr rfl (fun _ => rfl) fun hlen => ?_
  have hpos : 0 < ceilDiv length s.cfg.eraseGran := Nat.div_pos (by omega) he
  have hdvd : s.cfg.eraseGran ∣ alignDownBlock s.cfg address +
      (ceilDiv length s.cfg.eraseGran - 1) * s.cfg.eraseGran :=
    Nat.dvd_add (Nat.dvd_mul_left _ _) (Nat.dvd_mul_left _ _)
  have hblock := translateBank_block_end hc hdvd
  rwa [Nat.add_assoc, ← Nat.succ_mul, Nat.succ_eq_add_one, Nat.sub_add_cancel hpos] at hblock

/-- Settles O36: a byte lies between the ends of two blocks when its block does. -/
theorem overlapEraseClearsOverlappingBlocks : Obligations.OverlapEraseClearsOverlappingBlocks := by
  intro s address length hc hmode hq hready hsucc hfin hlen hrange
  obtain ⟨t, h, hend, hblocks, hflash, hbank⟩ := exec_erase_blocks hc hq hready hsucc hfin hrange
  obtain ⟨hopened, -⟩ := exec_erase_lifecycle hq h
  obtain ⟨-, -, hflight⟩ := (ready_iff t).1 hend.ready
  obtain ⟨-, -, -, -, he, -⟩ := wf_facts hc
  have hlen0 : length ≠ 0 := Nat.ne_of_gt hlen
  have hlast : eraseEnd s.cfg address length =
      alignDownBlock s.cfg (address + length - 1) + s.cfg.eraseGran := by simp only [eraseEnd, hmode, if_neg hlen0]
  refine ⟨t, h, hend.hr, fun a => ?_, ?_, hflight, exec_erase_hb hq h, hopened⟩
  · rw [hflash, Memory.read_eraseRange, hblocks, hlast]
    refine if_congr (and_congr (Nat.le_div_iff_mul_le he).symm ?_) rfl rfl
    rw [alignDownBlock, ← Nat.succ_mul, ← Nat.div_lt_iff_lt_mul he]
    exact Nat.lt_succ_iff
  · rw [hbank, if_neg hlen0, hlast]
    exact translateBank_block_end hc (Nat.dvd_mul_left _ _)

end Sys2Proof.Machine
end

section
/-! Settling the statements of spec/44_erase.md, layer 2: the frame of ERASE, whatever the oracle answers (R160, R162,
R167, R169). A block that is erased, or in which the command fails, is one that its mode's accounting covers. -/

namespace Sys2Proof.Machine

/-- R162: the blocks that are counted for `length` bytes hold as many. -/
theorem le_ceilDiv_mul {g : Nat} (hg : 0 < g) (length : Nat) : length ≤ ceilDiv length g * g := by
  have hdm := Nat.div_add_mod' (length + g - 1) g
  have hlt := Nat.mod_lt (length + g - 1) hg
  rw [ceilDiv]
  omega

/-- R160, R162, R167: in both modes the block of a cursor that has bytes left is covered by the accounting. -/
theorem alignDownBlock_add_le_eraseEnd {c : Config} (hc : c.wf = true) {address length cursor : Nat}
    (hlen : 0 < length) (hmore : cursor < eraseStart c address + length) :
    alignDownBlock c cursor + c.eraseGran ≤ eraseEnd c address length := by
  obtain ⟨-, -, -, -, he, -⟩ := wf_facts hc
  unfold eraseStart at hmore
  unfold eraseEnd
  cases hmode : c.eraseMode <;> simp only [hmode, alignDownBlock] at hmore ⊢
  · have hbytes := le_ceilDiv_mul he length
    have hblock : cursor / c.eraseGran < address / c.eraseGran + ceilDiv length c.eraseGran := by
      rw [Nat.div_lt_iff_lt_mul he, Nat.add_mul]
      omega
    rw [← Nat.succ_mul, ← Nat.add_mul]
    exact Nat.mul_le_mul_right _ hblock
  · rw [if_neg (Nat.ne_of_gt hlen)]
    exact Nat.add_le_add_right (Nat.mul_le_mul_right _ (Nat.div_le_div_right (Nat.le_sub_one_of_lt hmore))) _

section
variable {s t u : State} {address length : Nat}

/-- The segment in progress is a block that the accounting covers. -/
theorem frontier_add_le_eraseEnd (hu : u.Transfers) (hw : u.Walks) (h4 : u.regs.op = 4) (hin : u.fsm.inLoop = true)
    (hadv : u.fsm ≠ .adv) : u.frontier + u.segmentSize ≤ eraseEnd u.cfg u.regs.addr u.regs.len := by
  have htr := transferring_of_inLoop hu.loop hin
  have hleft := htr.left
  have htotal := hw.total hin
  rw [transferStart, if_pos h4] at htotal
  rw [frontier_of_cursor (by rintro e; simp [e, Fsm.inLoop] at hin) hadv, State.segmentSize, h4, segmentLength_erase,
    segmentStart_erase (htr.aligned h4)]
  exact alignDownBlock_add_le_eraseEnd hu.config (hu.nonempty hin) (by omega)

/-- An ERASE that has not failed by `u`, and after it has changed bytes in `[frontier, frontier + n)` only, has changed
no byte outside the blocks up to there. -/
theorem State.Erases.outside (he : s.Erases u) (hb : u.BlocksCounted) (hok : u.Unfailed) {n : Nat}
    (hsame : u.flash.SameOutside t.flash u.frontier n) {x : Nat}
    (hx : x < alignDownBlock u.cfg u.regs.addr ∨ u.frontier + n ≤ x) : t.flash.read x = s.flash.read x := by
  have hlow : alignDownBlock u.cfg u.regs.addr ≤ u.frontier := hb.frontier ▸ Nat.le_add_right _ _
  rw [hsame x (by omega), he.erased hok, if_neg (by omega)]

/-- R169: the frame of ERASE on the array. -/
theorem exec_erase_outside (hc : s.cfg.wf = true) (hq : s.quiet) (hready : s.ready = true) (hwf : s.flash.wf)
    (h : exec (.erase address length) s = .next t) {x : Nat}
    (hx : x < alignDownBlock s.cfg address ∨ eraseEnd s.cfg address length ≤ x) :
    t.flash.read x = s.flash.read x := by
  by_cases hrange : address + length ≤ s.cfg.totalSize
  · obtain ⟨hw, ⟨he, hb⟩, hend⟩ := exec_ends_on_device (P := fun u => s.Erases u ∧ u.BlocksCounted) hq h
      (transfers_erase hc hrange) hready (by simp [Instr.opcode]) ⟨erases_accept hwf, blocksCounted_accept _ _ _⟩
      (fun _ ⟨he, _⟩ hok => he.wf hok)
      fun _ _ hu e ht hw hd ⟨he, hb⟩ => ⟨ht.erases hu e hw hd he, ht.blocksCounted hu e hb⟩
    obtain ⟨⟨-, -, haddr, hlength⟩, -⟩ := commandsChangeOnlyTheirRegisters _ s t hq.2 h
    have haddr : t.regs.addr = address := haddr
    have hlength : t.regs.len = length := hlength
    rw [← exec_cfg h, ← haddr, ← hlength] at hx
    rcases hend with hok | ⟨u, ⟨he, hb⟩, hfail⟩
    · have hfront := hw.ended (.inr (exec_fsm hc h)) hok
      rw [transferEnd, if_pos he.op] at hfront
      exact he.outside hb (.inr hok) (.refl _ _ 0) (by rwa [hfront])
    · obtain ⟨hu, hin, hadv, hwu⟩ := hfail.begun
      have hupto := frontier_add_le_eraseEnd hu hwu hb.op hin hadv
      have hsame : t.regs.addr = u.regs.addr ∧ t.regs.len = u.regs.len :=
        ⟨congrArg (fun o => o.2.2.1) hfail.operands, congrArg (fun o => o.2.2.2) hfail.operands⟩
      rw [hfail.cfg, hsame.1, hsame.2] at hx
      exact he.outside hb (.inr (hu.clean hin).1) hfail.flash (hx.imp_right hupto.trans)
  · obtain ⟨r, e⟩ := exec_erase_of_outOfRange hq (Nat.not_le.1 hrange)
    obtain rfl := Host.Outcome.next.inj (e.symm.trans h)
    rfl

end

/-- Settles O38: an ERASE has no buffer, and no block of it lies outside its accounting. -/
theorem eraseFrame : Obligations.EraseFrame := by
  intro s t address length hc hq hready hwf h
  obtain ⟨hopened, hcond⟩ := exec_erase_lifecycle hq h
  exact ⟨fun _ hx => exec_erase_outside hc hq hready hwf h hx, exec_erase_hb hq h, hopened, hcond, exec_hc h,
    exec_cfg h, exec_resets_of_nil hq.2 h, exec_fsm hc h⟩

end Sys2Proof.Machine
end

section
/-! Settling the statements of spec/44_erase.md, layer 3: for aligned requests the two accountings are the same (R166).
Two runs that differ in `ERASE_STEP_MODE` go through the same states but for it: as long as the cursor stays on block
boundaries, both translate the cursor itself and advance by a whole block. -/

namespace Sys2Proof.Machine

/-! ### A configuration with another `ERASE_STEP_MODE` -/

def State.withMode (m : EraseMode) (s : State) : State := { s with cfg := { s.cfg with eraseMode := m } }

section
variable (m : EraseMode) (s : State)

@[simp] theorem withMode_fsm : (s.withMode m).fsm = s.fsm := rfl
@[simp] theorem withMode_regs : (s.withMode m).regs = s.regs := rfl
@[simp] theorem withMode_cfg : (s.withMode m).cfg = { s.cfg with eraseMode := m } := rfl
@[simp] theorem withMode_inFlight : (s.withMode m).inFlight = s.inFlight := rfl
@[simp] theorem withMode_ready : (s.withMode m).ready = s.ready := rfl
@[simp] theorem withMode_drawn : (s.withMode m).drawn = s.drawn := rfl
@[simp] theorem withMode_nextStatus : (s.withMode m).nextStatus = s.nextStatus := rfl

@[simp] theorem withMode_late (d : Drawn) : (s.withMode m).late d = (s.late d).withMode m := by
  unfold State.late
  rw [withMode_inFlight]
  cases s.inFlight with
  | none => rfl
  | some f => cases f <;> rfl

@[simp] theorem withMode_settle (d : Drawn) : (s.withMode m).settle d = (s.settle d).withMode m := by
  unfold State.settle
  rw [withMode_inFlight]
  cases s.inFlight with
  | none => rfl
  | some f => cases d.ans.settled <;> rfl

@[simp] theorem withMode_called : (s.withMode m).called = s.called.withMode m := withMode_settle m s.draw s.drawn

@[simp] theorem withMode_sampleBusy : (s.withMode m).sampleBusy = s.sampleBusy := by
  rw [State.sampleBusy, withMode_called]
  rfl

@[simp] theorem withMode_statusGet : (s.withMode m).statusGet = s.statusGet.withMode m := by
  simp only [State.statusGet, withMode_called, withMode_nextStatus, withMode_sampleBusy]
  rfl

@[simp] theorem withMode_bankSelect (b : Nat) : (s.withMode m).bankSelect b = (s.bankSelect b).withMode m := by
  simp only [State.bankSelect, withMode_called, withMode_ready]
  split <;> rfl

@[simp] theorem withMode_eraseBlock (pa n : Nat) : (s.withMode m).eraseBlock pa n = (s.eraseBlock pa n).withMode m := by
  simp only [State.eraseBlock, withMode_called, withMode_ready, withMode_nextStatus]
  split
  · split <;> rfl
  · rfl

end

/-! ### The visits that look at the mode, on block boundaries -/

/-- R160, R167: the segment of an aligned cursor starts at the cursor, in both modes. -/
theorem segmentStart_of_aligned {c : Config} {cursor : Nat} (hal : cursor % c.eraseGran = 0) :
    segmentStart c 4 cursor = cursor :=
  (segmentStart_erase fun _ => hal).trans (Nat.div_mul_cancel (Nat.dvd_of_mod_eq_zero hal))

/-- R160, R167: from an aligned cursor ERASE advances by a block, in both modes. -/
theorem eraseStep_of_aligned {c : Config} {cursor : Nat} (hal : cursor % c.eraseGran = 0) :
    eraseStep c cursor = c.eraseGran := by
  unfold eraseStep
  cases c.eraseMode
  · rfl
  · simp [remainBlock, hal]

/-- R160, R167: an aligned request starts at its address, in both modes. -/
theorem eraseStart_of_aligned {c : Config} {address : Nat} (hal : c.eraseGran ∣ address) :
    eraseStart c address = address := by
  unfold eraseStart
  cases c.eraseMode
  · exact Nat.div_mul_cancel hal
  · rfl

section
variable {m : EraseMode} {s : State}

theorem withMode_checkErase (hal : s.cfg.eraseGran ∣ s.regs.addr) :
    (s.withMode m).checkErase = s.checkErase.withMode m := by
  have hrange : validateRange (s.withMode m).cfg s.regs.addr s.regs.len =
      validateRange s.cfg s.regs.addr s.regs.len := rfl
  have hstart : eraseStart (s.withMode m).cfg s.regs.addr = eraseStart s.cfg s.regs.addr := by
    rw [eraseStart_of_aligned hal]
    exact eraseStart_of_aligned (c := (s.withMode m).cfg) hal
  simp only [State.checkErase, withMode_regs, hrange, hstart]
  cases validateRange s.cfg s.regs.addr s.regs.len <;> rfl

theorem withMode_visitCheck (h4 : s.regs.op = 4) (hal : s.cfg.eraseGran ∣ s.regs.addr) :
    (s.withMode m).visitCheck = s.visitCheck.withMode m := by
  have hcheck (u : State) (hu : u.regs.op = 4) : u.visitCheck = { u with regs := u.regs.clearLatch }.checkErase := by
    simp [State.visitCheck, hu]
  rw [hcheck s h4, hcheck (s.withMode m) h4]
  exact withMode_checkErase (s := { s with regs := s.regs.clearLatch }) hal

theorem withMode_visitXlate (h4 : s.regs.op = 4) (hal : s.regs.cursor % s.cfg.eraseGran = 0) :
    (s.withMode m).visitXlate = s.visitXlate.withMode m := by
  have hstart : segmentStart (s.withMode m).cfg s.regs.op s.regs.cursor =
      segmentStart s.cfg s.regs.op s.regs.cursor := by
    rw [h4, segmentStart_of_aligned hal]
    exact segmentStart_of_aligned (c := (s.withMode m).cfg) hal
  simp only [State.visitXlate, withMode_regs, hstart]
  rfl

theorem withMode_visitBank (m : EraseMode) (s : State) : (s.withMode m).visitBank = s.visitBank.withMode m := by
  simp only [State.visitBank, withMode_regs, withMode_bankSelect, withMode_nextStatus]
  split <;> rfl

theorem withMode_visitXfer (h4 : s.regs.op = 4) : (s.withMode m).visitXfer = s.visitXfer.withMode m := by
  have herase (u : State) (hu : u.regs.op = 4) : u.visitXfer = u.xferErase := by simp [State.visitXfer, hu]
  rw [herase s h4, herase (s.withMode m) h4]
  simp only [State.xferErase, withMode_regs, withMode_eraseBlock, withMode_nextStatus]
  split <;> rfl

theorem withMode_visitPoll (m : EraseMode) (s : State) : (s.withMode m).visitPoll = s.visitPoll.withMode m := by
  have hcount : { s.statusGet.withMode m with regs := { s.statusGet.regs with
      pollCnt := s.statusGet.regs.pollCnt - 1 } } = { s.statusGet with regs := { s.statusGet.regs with
      pollCnt := s.statusGet.regs.pollCnt - 1 } }.withMode m := rfl
  simp only [State.visitPoll, withMode_statusGet, withMode_regs, withMode_nextStatus, withMode_sampleBusy,
    withMode_drawn, hcount, withMode_late]
  repeat' split
  all_goals rfl

theorem withMode_visitAdv (h4 : s.regs.op = 4) (hal : s.regs.cursor % s.cfg.eraseGran = 0) :
    (s.withMode m).visitAdv = s.visitAdv.withMode m := by
  have hstep : advanceStep (s.withMode m).cfg s.regs.op s.regs.cursor s.regs.segLen =
      advanceStep s.cfg s.regs.op s.regs.cursor s.regs.segLen := by
    rw [advanceStep, advanceStep, if_pos h4, if_pos h4, eraseStep_of_aligned hal]
    exact eraseStep_of_aligned (c := (s.withMode m).cfg) hal
  simp only [State.visitAdv, withMode_regs, hstep]
  rfl

/-! ### An aligned ERASE, step by step -/

/-- An ERASE of an aligned request, in `perGranule` mode. -/
structure State.ErasesAligned (s : State) : Prop where
  config    : s.cfg.wf = true
  mode      : s.cfg.eraseMode = .perGranule
  op        : s.regs.op = 4
  address   : s.cfg.eraseGran ∣ s.regs.addr
  lifecycle : s.fsm.inLifecycle = false
  loop      : s.loopOk

/-- R166: no visit of an aligned ERASE depends on the mode. -/
theorem State.ErasesAligned.visit_withMode (h : s.ErasesAligned) : (s.withMode m).visit = s.visit.withMode m := by
  have hlife := h.lifecycle
  have hal (hin : s.fsm.inLoop = true) : s.regs.cursor % s.cfg.eraseGran = 0 := h.loop.aligned hin h.op h.mode
  unfold State.visit
  rw [withMode_fsm]
  cases hf : s.fsm
  case check => exact withMode_visitCheck h.op h.address
  case xlate => exact withMode_visitXlate h.op (hal (by rw [hf]; rfl))
  case bank => exact withMode_visitBank m s
  case xfer => exact withMode_visitXfer h.op
  case poll => exact withMode_visitPoll m s
  case adv => exact withMode_visitAdv h.op (hal (by rw [hf]; rfl))
  case idle | seg | resp => rfl
  all_goals simp [hf, Fsm.inLifecycle] at hlife

theorem State.Exit.erasesAligned {t : State} (e : s.Exit t) (h : s.ErasesAligned) : t.ErasesAligned where
  config := e.cfg ▸ h.config
  mode := e.cfg ▸ h.mode
  op := e.op.trans h.op
  address := by rw [e.cfg, e.addr]; exact h.address
  lifecycle := by
    have h4 := h.op
    rw [← Bool.not_eq_true]
    intro ht
    rcases e.inLifecycle ht with hl | h0 | h1
    · simp [h.lifecycle] at hl
    · simp [h0] at h4
    · simp [h1] at h4
  loop := e.loopOk h.config h.loop

/-- The reset input is no part of it. -/
theorem State.ErasesAligned.withResets (h : s.ErasesAligned) (r : List Nat) :
    State.ErasesAligned { s with resets := r } :=
  ⟨h.config, h.mode, h.op, h.address, h.lifecycle, (loopOk_iff _).2 ((loopOk_iff s).1 h.loop)⟩

/-- A step of an aligned ERASE goes on with it, unless a reset ends it. -/
theorem State.ErasesAligned.tick (h : s.ErasesAligned) : s.tick.ErasesAligned ∨ s.tick.fsm = .idle := by
  rcases tick_visit_or_reset s with ⟨r, e⟩ | ⟨-, e⟩
  · exact .inl (e ▸ (visit_exit _).erasesAligned (h.withResets r))
  · exact .inr (by rw [e, takeReset_fsm])

theorem State.ErasesAligned.tick_withMode (h : s.ErasesAligned) : (s.withMode m).tick = s.tick.withMode m := by
  match hr : s.resets with
  | [] => rw [tick_of_noReset hr, tick_of_noReset (s := s.withMode m) hr, h.visit_withMode]
  | 0 :: _ =>
    rw [tick_of_due hr, tick_of_due (s := s.withMode m) hr]
    rfl
  | (k + 1) :: later =>
    rw [tick_of_later hr, tick_of_later (s := s.withMode m) hr]
    exact (h.withResets (k :: later)).visit_withMode

/-- R166: the two runs go through the same states but for the mode. -/
theorem run_withMode (n : Nat) (h : s.ErasesAligned ∨ s.fsm = .idle) :
    (s.withMode m).run n = (s.run n).withMode m := by
  induction n generalizing s with
  | zero => rfl
  | succ n ih =>
    by_cases hi : s.fsm = .idle
    · rw [run_of_idle hi, run_of_idle (s := s.withMode m) hi]
    · have hs := h.resolve_right hi
      rw [run_succ hi, run_succ (s := s.withMode m) hi, hs.tick_withMode, ih hs.tick]

/-! ### The whole command -/

theorem erasesAligned_accept {address : Nat} (length : Nat) (hc : s.cfg.wf = true)
    (hmode : s.cfg.eraseMode = .perGranule) (ha : s.cfg.eraseGran ∣ address) :
    (s.accept ((Instr.erase address length).load s.regs)).ErasesAligned where
  config := hc
  mode := hmode
  op := rfl
  address := ha
  lifecycle := rfl
  loop := loopOk_of_outside rfl

/-- R166: an aligned ERASE in `perGranule` mode is observed as it would be in any mode. -/
theorem observe_erase_withMode {address : Nat} (length : Nat) (hc : s.cfg.wf = true)
    (hmode : s.cfg.eraseMode = .perGranule) (ha : s.cfg.eraseGran ∣ address) :
    observe (exec (.erase address length) (s.withMode m)) = observe (exec (.erase address length) s) := by
  by_cases hi : s.fsm = .idle
  · have hrun := run_withMode (m := m) (commandBound (.erase address length) s)
      (.inl (erasesAligned_accept length hc hmode ha))
    rw [exec_of_idle rfl hi, exec_of_idle rfl (s := s.withMode m) hi]
    have hseen := congrArg (fun t => observe (.next t)) hrun
    exact hseen
  · simp [exec_eq_command, State.command, State.bufferFits, hi, observe]

end

/-- Settles O37: in both modes the command is observed as in `perGranule` mode. -/
theorem eraseModesAgreeOnAlignedRequests : Obligations.EraseModesAgreeOnAlignedRequests := by
  intro s address length m hc ha _
  have hany (m' : EraseMode) : observe (exec (.erase address length) (s.withMode m')) =
      observe (exec (.erase address length) (s.withMode .perGranule)) :=
    observe_erase_withMode (s := s.withMode .perGranule) length hc rfl ha
  exact (hany s.cfg.eraseMode).trans (hany m).symm

end Sys2Proof.Machine
end

section
/-! Settling the statements of spec/45_lifecycle.md, layer 1: the frame of OPEN and CLOSE, whatever the oracle answers,
and the repeated OPEN (R170, R174, R219). -/

namespace Sys2Proof.Machine

/-! ### A handshake or teardown call leaves an idle device's flash array alone (log entry 16) -/

section
variable {s t : State}

theorem peripheralOpen_flash_of_idle (hi : s.inFlight = none) : s.peripheralOpen.flash = s.flash := by
  simp [State.peripheralOpen, called_of_idle hi, reconfigure_of_idle (s := s.draw) hi]

theorem directWrite_flash_of_idle (hi : s.inFlight = none) (bytes : List Byte) (keep : Bool) :
    (s.directWrite bytes keep).flash = s.flash := by
  simp [State.directWrite, called_of_idle hi, reconfigure_of_idle (s := s.draw) hi]

theorem directRead_flash_of_idle (hi : s.inFlight = none) (n : Nat) : (s.directRead n).flash = s.flash := by
  simp [State.directRead, called_of_idle hi, reconfigure_of_idle (s := s.draw) hi]

theorem peripheralClose_flash_of_idle (hi : s.inFlight = none) : s.peripheralClose.flash = s.flash := by
  simp [State.peripheralClose, called_of_idle hi, reconfigure_of_idle (s := s.draw) hi]

theorem State.Calls.flash_of_idle {f : Fsm} (h : s.Calls t f) (hl : s.fsm.inLoop = false) (hi : s.inFlight = none) :
    t.flash = s.flash := by
  cases h
  case bank hf => simp [hf, Fsm.inLoop] at hl
  case hsOpen => exact peripheralOpen_flash_of_idle hi
  case close => exact peripheralClose_flash_of_idle (s := { s with opened := false }) hi
  all_goals exact directWrite_flash_of_idle hi _ _

/-- Outside the segment loop the flash array of an idle device is left alone. -/
theorem State.Exit.flash_of_idle (h : s.Exit t) (hl : s.fsm.inLoop = false) (hi : s.inFlight = none) :
    t.flash = s.flash := by
  cases h
  case copies hf _ | issues hf _ _ _ | issueFails hf _ _ _ | pollFails hf _ | completes hf _ _ | timesOut hf _ _ _ |
    pollsAgain hf _ _ _ => simp [hf, Fsm.inLoop] at hl
  case called hc _ => exact hc.flash_of_idle hl hi
  case callFails hc _ => exact hc.flash_of_idle hl hi
  case readBackFails | mismatches | opens => exact directRead_flash_of_idle hi s.cfg.srExpected.length
  all_goals rfl

/-- R30: only `status_get` samples the device's error code. -/
theorem State.Exit.devError (h : s.Exit t) (hl : s.fsm.inLoop = false) : t.devError = s.devError := by
  cases h
  case copies hf _ | issues hf _ _ _ | issueFails hf _ _ _ | pollFails hf _ | completes hf _ _ | timesOut hf _ _ _ |
    pollsAgain hf _ _ _ => simp [hf, Fsm.inLoop] at hl
  case called hc _ | callFails hc _ => cases hc <;> simp
  case readBackFails | mismatches | opens => simp
  all_goals rfl

/-! ### The frame of OPEN and CLOSE -/

/-- What OPEN and CLOSE leave alone, as they have gone from `s` to `t`. -/
structure State.LifecycleFrame (s t : State) : Prop where
  op       : t.regs.op = 0 ∨ t.regs.op = 1
  outside  : t.fsm.inLoop = false
  hb       : t.hb = s.hb
  devError : t.devError = s.devError
  idle     : s.inFlight = none → t.flash = s.flash ∧ t.inFlight = none

theorem State.Exit.lifecycleFrame {u v : State} (e : u.Exit v) (h : s.LifecycleFrame u) : s.LifecycleFrame v where
  op := e.op ▸ h.op
  outside := by
    by_contra hin
    rcases e.inLoop (by simpa using hin) with hu | hop
    · simp [h.outside] at hu
    · rcases h.op with h0 | h0 <;> simp [h0] at hop
  hb := (e.hb (by rcases h.op with h0 | h0 <;> simp [h0])).trans h.hb
  devError := (e.devError h.outside).trans h.devError
  idle hi := by
    obtain ⟨hflash, hnone⟩ := h.idle hi
    have hx : u.fsm ≠ .xfer := fun hf => by simpa [hf, Fsm.inLoop] using h.outside
    exact ⟨(e.flash_of_idle h.outside hnone).trans hflash, e.inFlight_of_idle hnone (.inl hx)⟩

theorem exec_lifecycleFrame {i : Instr} (hop : i.opcode = 0 ∨ i.opcode = 1) (hq : s.quiet)
    (h : exec i s = .next t) : s.LifecycleFrame t :=
  exec_keeps_of_exit (P := s.LifecycleFrame) hq.2 h
    { op := by simpa using hop, outside := rfl, hb := rfl, devError := rfl, idle := fun hi => ⟨rfl, hi⟩ }
    fun _ _ e => e.lifecycleFrame

/-! ### The names of OPEN and CLOSE (R176) -/

theorem exec_eq_open {i : Instr} (h : i = .openCmd ∨ i = .initCmd) (s : State) : exec i s = exec .openCmd s := by
  rcases h with rfl | rfl
  · rfl
  · exact aliasesMeanTheirCommands .initCmd s

theorem exec_eq_close {i : Instr} (h : i = .closeCmd ∨ i = .deinitCmd) (s : State) :
    exec i s = exec .closeCmd s := by
  rcases h with rfl | rfl
  · rfl
  · exact aliasesMeanTheirCommands .deinitCmd s

end

/-- R170: OPEN on an open block is answered at once. -/
theorem visitCheck_of_opened {s : State} (hop : s.regs.op = 0) (h : s.opened = true) :
    s.visitCheck = { s with regs := s.regs.clearLatch }.goto .resp := by
  simp [State.visitCheck, hop, h]

/-- Settles O15: `S_CHECK` sends OPEN on an open block to `S_RESP`. -/
theorem repeatedOpenIsANoOp : Obligations.RepeatedOpenIsANoOp := by
  intro s i hcmd hq hopened
  have hcheck : (s.accept (Instr.openCmd.load s.regs)).visitCheck =
      (s.accept (Instr.openCmd.load s.regs).clearLatch).goto .resp :=
    visitCheck_of_opened (s := s.accept (Instr.openCmd.load s.regs)) rfl hopened
  rw [exec_eq_open hcmd, exec_of_check hq rfl hcheck, response_of_clean ⟨rfl, rfl⟩ rfl (by simp [Instr.opcode])]
  exact ⟨_, rfl⟩

end Sys2Proof.Machine
end

section
/-! Settling the statements of spec/45_lifecycle.md, layer 2: the handshake of OPEN call by call, its three ways out, and
the teardown of CLOSE (R170 to R174). -/

namespace Sys2Proof.Machine

/-! ### The five calls of the handshake (R172) -/

/-- R23: the sequencer state that makes call `k` of the handshake. -/
def handshakeFsm : Nat → Fsm
  | 0 => .hsOpen
  | 1 => .hsWren
  | 2 => .hsWrsr
  | 3 => .hsRdbk
  | _ => .hsRead

/-- R172: what call `k` of the handshake leaves. -/
def State.handshakeCall (s : State) : Nat → State
  | 0 => s.peripheralOpen
  | 1 => s.directWrite [s.cfg.cmdWren] false
  | 2 => s.directWrite (s.cfg.cmdWrsr :: s.cfg.srExpected) false
  | 3 => s.directWrite [s.cfg.cmdRdsr] true
  | _ => s.directRead s.cfg.srExpected.length

/-- R172: the trace entry of call `k` of the handshake, that returned `st`; the last call read the bytes `read`. -/
def handshakePrim (c : Config) (st : Nat) (read : List Byte) : Nat → Prim
  | 0 => .peripheralOpen c.periphConfig st
  | 1 => .directWrite [c.cmdWren] 1 false st
  | 2 => .directWrite (c.cmdWrsr :: c.srExpected) (1 + c.srExpected.length) false st
  | 3 => .directWrite [c.cmdRdsr] 1 true st
  | _ => .directRead c.srExpected.length st read

section
variable (s : State) (k : Nat)

@[simp] theorem handshakeCall_cfg : (s.handshakeCall k).cfg = s.cfg := by
  unfold State.handshakeCall; split <;> simp
@[simp] theorem handshakeCall_opened : (s.handshakeCall k).opened = s.opened := by
  unfold State.handshakeCall; split <;> simp
@[simp] theorem handshakeCall_regs : (s.handshakeCall k).regs = s.regs := by
  unfold State.handshakeCall; split <;> simp
@[simp] theorem handshakeCall_resets : (s.handshakeCall k).resets = s.resets := by
  unfold State.handshakeCall; split <;> simp
@[simp] theorem handshakeCall_script : (s.handshakeCall k).script = s.script.tail := by
  unfold State.handshakeCall; split <;> simp
@[simp] theorem handshakeCall_draws : (s.handshakeCall k).draws = s.draws + 1 := by
  unfold State.handshakeCall; split <;> simp
@[simp] theorem handshakeCall_trace : (s.handshakeCall k).trace =
    s.trace ++ [handshakePrim s.cfg s.nextStatus (s.directReadBytes s.cfg.srExpected.length) k] := by
  unfold State.handshakeCall handshakePrim; split <;> simp [Nat.add_comm]

/-- Only the last call reads. -/
theorem handshakePrim_of_lt {k : Nat} (hk : k < 4) (c : Config) (st : Nat) (read read' : List Byte) :
    handshakePrim c st read k = handshakePrim c st read' k := by
  interval_cases k <;> rfl

end

section
variable {s u : State} {k : Nat}

/-- R173: a call that fails ends the handshake. -/
theorem visit_of_handshake_failed (hk : k < 5) (hf : u.fsm = handshakeFsm k) (hfail : u.nextStatus ≠ 0) :
    u.visit = (u.handshakeCall k).raise .deviceError u.nextStatus := by
  interval_cases k <;> rw [State.visit, hf]
  · exact if_neg hfail
  · exact if_neg hfail
  · exact if_neg hfail
  · exact if_neg hfail
  · exact if_pos hfail

/-- R172: a call that succeeds, but for the read-back, leads to the next one. -/
theorem visit_of_handshake_ok (hk : k < 4) (hf : u.fsm = handshakeFsm k) (h0 : u.nextStatus = 0) :
    u.visit = (u.handshakeCall k).goto (handshakeFsm (k + 1)) := by
  interval_cases k <;> rw [State.visit, hf] <;> exact if_pos h0

/-- The registers along the handshake: the opcode loaded and the latch cleared (R28, R83). -/
def Regs.opening (r : Regs) : Regs := (Instr.openCmd.load r).clearLatch

/-- `u` is what an OPEN given in `s` has come to after `k` calls of the handshake that all succeeded. -/
structure State.Shakes (s : State) (k : Nat) (u : State) : Prop where
  fsm    : u.fsm = handshakeFsm k
  resets : u.resets = []
  cfg    : u.cfg = s.cfg
  closed : u.opened = false
  regs   : u.regs = s.regs.opening
  draws  : u.draws = s.draws + k
  answer : ∀ j, u.answer j = s.answer (k + j)
  trace  : u.trace = (List.range k).map (handshakePrim s.cfg 0 s.cfg.srExpected)

/-- The oracle's answer `k` is a SUCCESS. -/
def State.AnswersOk (s : State) (k : Nat) : Prop := (s.answer k).status % 2 ^ s.cfg.perrW = 0

theorem State.Shakes.fsm_ne_idle (h : s.Shakes k u) : u.fsm ≠ .idle := by
  rw [h.fsm]
  unfold handshakeFsm
  split <;> simp

/-- The status of the next call is that of the oracle's answer `k`. -/
theorem State.Shakes.nextStatus (h : s.Shakes k u) : u.nextStatus = (s.answer k).status % 2 ^ s.cfg.perrW := by
  simp [State.nextStatus, State.drawn, Drawn.code, h.answer, h.cfg]

/-- The bytes of the read-back are those of the oracle's answer `k`. -/
theorem State.Shakes.directReadBytes (h : s.Shakes k u) (n : Nat) :
    u.directReadBytes n = Drawn.bytes ⟨s.answer k, s.draws + k⟩ n := by
  simp [State.directReadBytes, State.drawn, h.answer, h.draws]

theorem State.Shakes.step (h : s.Shakes k u) (hk : k < 4) (hok : s.AnswersOk k) : s.Shakes (k + 1) u.visit := by
  have h0 : u.nextStatus = 0 := h.nextStatus.trans hok
  rw [visit_of_handshake_ok hk h.fsm h0]
  exact {
    fsm := rfl
    resets := by simp [h.resets]
    cfg := by simp [h.cfg]
    closed := by simp [h.closed]
    regs := by simp [h.regs]
    draws := by simp [h.draws, Nat.add_assoc]
    answer := fun j => by
      rw [answer_of_draws (s := u) (by simp) (by simp), h.answer, Nat.add_right_comm, Nat.add_assoc]
    trace := by
      rw [goto_trace, handshakeCall_trace, h.trace, h.cfg, h0, List.range_succ, List.map_append,
        handshakePrim_of_lt hk _ _ _ s.cfg.srExpected]
      rfl }

/-! ### The run of an OPEN -/

/-- R23: the two sequencer steps from a visit that leads to `S_RESP` deliver the response. -/
theorem run_of_visit_resp (hr : u.resets = []) (hi : u.fsm ≠ .idle) (hresp : u.visit.fsm = .resp) (n : Nat) :
    u.run (n + 2) = u.visit.respond := by
  rw [run_succ hi, tick_of_noReset hr, run_of_resp hresp, tick_of_noReset (by rw [visit_resets, hr]), State.visit,
    hresp]

/-- A command of an idle block without a reset is a run from what its visit of `S_CHECK` leaves. -/
theorem exec_eq_run_visitCheck {i : Instr} (hq : s.quiet) (hb : s.bufferFits i = true) :
    ∃ n, exec i s = .next ((s.accept (i.load s.regs)).visitCheck.run (n + 6)) := by
  obtain ⟨hi, hr⟩ := hq
  obtain ⟨n, hn⟩ : ∃ n, commandBound i s = n + 6 + 1 := ⟨commandBound i s - 7, by simp [commandBound, tickBound]⟩
  refine ⟨n, ?_⟩
  rw [exec_of_idle hb hi, hn, run_succ (by simp), tick_of_noReset (s := s.accept (i.load s.regs)) hr, State.visit,
    accept_fsm]

/-- R170: OPEN on a closed block starts the handshake. -/
theorem shakes_zero (hq : s.quiet) (hclosed : s.opened = false) :
    s.Shakes 0 (s.accept (Instr.openCmd.load s.regs)).visitCheck := by
  have hcheck : (s.accept (Instr.openCmd.load s.regs)).visitCheck = (s.accept s.regs.opening).goto .hsOpen := by
    simp [State.visitCheck, Instr.opcode, hclosed, State.accept, Regs.opening]
  obtain ⟨-, hr⟩ := hq
  rw [hcheck]
  exact {
    fsm := rfl, resets := hr, cfg := rfl, closed := hclosed, regs := rfl, draws := rfl, trace := rfl
    answer := fun j => by rw [Nat.zero_add]; rfl }

/-- OPEN on a closed block whose first `k` calls succeed is the run from the call after them. -/
theorem exec_open_shakes (hq : s.quiet) (hclosed : s.opened = false) (hk : k ≤ 4) (hok : ∀ j, j < k → s.AnswersOk j) :
    ∃ u n, s.Shakes k u ∧ exec .openCmd s = .next (u.run (n + (6 - k))) := by
  induction k with
  | zero =>
    obtain ⟨n, hn⟩ := exec_eq_run_visitCheck hq (i := .openCmd) rfl
    exact ⟨_, n, shakes_zero hq hclosed, hn⟩
  | succ k ih =>
    obtain ⟨u, n, hu, hrun⟩ := ih (by omega) fun j hj => hok j (by omega)
    refine ⟨u.visit, n, hu.step hk (hok k (Nat.lt_succ_self k)), ?_⟩
    rw [hrun, show n + (6 - k) = n + (6 - (k + 1)) + 1 by omega, run_succ hu.fsm_ne_idle, tick_of_noReset hu.resets]

/-- OPEN on a closed block whose first `k` calls succeed is answered after the next one if that leads to `S_RESP`. -/
theorem exec_open_ends (hq : s.quiet) (hclosed : s.opened = false) (hk : k < 5) (hok : ∀ j, j < k → s.AnswersOk j) :
    ∃ u, s.Shakes k u ∧ (u.visit.fsm = .resp → exec .openCmd s = .next u.visit.respond) := by
  obtain ⟨u, n, hu, hrun⟩ := exec_open_shakes hq hclosed (Nat.le_of_lt_succ hk) hok
  refine ⟨u, hu, fun hresp => ?_⟩
  rw [hrun, show n + (6 - k) = n + (4 - k) + 2 by omega, run_of_visit_resp hu.resets hu.fsm_ne_idle hresp]

/-! ### The three ways out of the handshake -/

/-- R216: an error carries no value and no string. -/
theorem deviceError_response (info : Nat) (s : State) :
    (s.raise .deviceError info).response = Response.status .deviceError info := by
  simp [State.response, Response.status]

/-- R173: what OPEN leaves when call `k` of the handshake ends it in an error: no call has been made after it, and the
block is still closed. -/
theorem exec_open_of_raise {info : Nat} (hq : s.quiet) (hclosed : s.opened = false) (hk : k < 5)
    (hok : ∀ j, j < k → s.AnswersOk j)
    (hraise : ∀ u, s.Shakes k u → u.visit = (u.handshakeCall k).raise .deviceError info) :
    ∃ t, exec .openCmd s = .next t ∧ t.opened = false ∧ t.fsm = .idle ∧
      t.hr = some (Response.status .deviceError info) ∧ t.trace.length = k + 1 ∧ t.draws = s.draws + (k + 1) ∧
      (s.inFlight = none → t.flash = s.flash) ∧ t.hb = s.hb ∧ t.hc = s.hc ∧ t.cfg = s.cfg ∧ t.resets = [] ∧
      t.devError = s.devError := by
  obtain ⟨u, hu, hends⟩ := exec_open_ends hq hclosed hk hok
  have hvisit := hraise u hu
  have hexec := hends (by rw [hvisit, raise_fsm])
  have hframe := exec_lifecycleFrame (.inl rfl) hq hexec
  refine ⟨_, hexec, ?opened, rfl, ?hr, ?trace, ?draws, fun hi => (hframe.idle hi).1, hframe.hb, exec_hc hexec,
    exec_cfg hexec, exec_resets_of_nil hq.2 hexec, hframe.devError⟩
  case opened => simp [hvisit, hu.closed]
  case hr => rw [respond_hr, hvisit, deviceError_response]
  case trace => simp [hvisit, hu.trace]
  case draws => simp [hvisit, hu.draws, Nat.add_assoc]

end

/-- Settles O16: a failing call ends the handshake with its own code. -/
theorem openFailsFast : Obligations.OpenFailsFast := by
  intro s i k hcmd hq hclosed hk hok hfail
  rw [exec_eq_open hcmd]
  refine exec_open_of_raise hq hclosed hk hok fun u hu => ?_
  rw [← hu.nextStatus] at hfail ⊢
  exact visit_of_handshake_failed hk hu.fsm hfail

/-- Settles O17: the read-back is the last of the five calls, and its bytes are compared. -/
theorem openReportsAMismatch : Obligations.OpenReportsAMismatch := by
  intro s i hcmd hq hclosed hok hread
  rw [exec_eq_open hcmd]
  obtain ⟨t, hexec, hopened, hidle, hhr, htrace, -, hframe⟩ := exec_open_of_raise (k := 4)
    (info := s.cfg.openMismatchCode) hq hclosed (by omega) (fun j hj => hok j (by omega)) fun u hu => by
      rw [State.visit, hu.fsm, ← hu.cfg]
      rcases visitHsRead_cases u with ⟨hfail, -⟩ | ⟨-, hmatch, -⟩ | ⟨-, -, e⟩
      · exact absurd (hu.nextStatus.trans (hok 4 (by omega))) hfail
      · rw [hu.directReadBytes, hu.cfg] at hmatch
        exact absurd hmatch hread
      · exact e
  exact ⟨t, hexec, hopened, hidle, hhr, htrace, hframe⟩

/-- Settles O14: the read-back is the last of the five calls, and its bytes match. -/
theorem openPerformsTheHandshake : Obligations.OpenPerformsTheHandshake := by
  intro s i hcmd hq hclosed hok hread
  rw [exec_eq_open hcmd]
  obtain ⟨u, hu, hends⟩ := exec_open_ends hq hclosed (k := 4) (by omega) fun j hj => hok j (by omega)
  have h0 : u.nextStatus = 0 := hu.nextStatus.trans (hok 4 (by omega))
  have hmatch : u.directReadBytes u.cfg.srExpected.length = u.cfg.srExpected := by
    rw [hu.directReadBytes, hu.cfg, hread]
  have hvisit : u.visit = { u.handshakeCall 4 with opened := true, condition := .configured, fsm := .resp } := by
    rw [State.visit, hu.fsm]
    rcases visitHsRead_cases u with ⟨hfail, -⟩ | ⟨-, -, e⟩ | ⟨-, hmis, -⟩
    · exact absurd h0 hfail
    · exact e
    · exact absurd hmatch hmis
  have hregs : u.visit.regs = s.regs.opening := by simp [hvisit, hu.regs]
  have hexec := hends (by rw [hvisit])
  have hframe := exec_lifecycleFrame (.inl rfl) hq hexec
  refine ⟨_, hexec, ?opened, ?condition, ?hr, ?trace, rfl, hframe.hb, exec_hc hexec, exec_cfg hexec,
    exec_resets_of_nil hq.2 hexec, hframe.devError, ?draws, hframe.idle⟩
  case opened => rw [respond_opened, hvisit]
  case condition => rw [respond_condition, hvisit]
  case hr =>
    have h9 : u.visit.regs.op ≠ 9 := by simp [hregs, Regs.opening, Instr.opcode]
    rw [respond_hr, response_of_clean (hregs ▸ ⟨rfl, rfl⟩) (hregs ▸ rfl) h9]
  case trace =>
    have hprims : u.visit.trace = (List.range 5).map (handshakePrim s.cfg 0 s.cfg.srExpected) := by
      rw [hvisit, handshakeCall_trace, hu.trace, hmatch, h0, hu.cfg]
      rfl
    exact hprims
  case draws => simp [hvisit, hu.draws]

/-! ### The teardown (R174) -/

section
variable (s : State)

theorem visitClose_fsm : s.visitClose.fsm = .resp := by
  simp only [State.visitClose]; split <;> rfl

theorem visitClose_opened : s.visitClose.opened = false := by
  simp only [State.visitClose]; split <;> simp

theorem visitClose_draws : s.visitClose.draws = s.draws + 1 := by
  simp only [State.visitClose]; split <;> simp

theorem visitClose_trace : s.visitClose.trace = s.trace ++ [.peripheralClose s.nextStatus] := by
  have hstatus : { s with opened := false }.nextStatus = s.nextStatus := rfl
  simp only [State.visitClose]; split <;> simp [hstatus]

/-- R174: an accepted CLOSE in `S_CLOSE`. -/
def State.closing : State := (s.accept (Instr.closeCmd.load s.regs).clearLatch).goto .close

end

/-- R174: CLOSE is the one call of `S_CLOSE`, open or closed, and the response. -/
theorem exec_close {s : State} (hq : s.quiet) : exec .closeCmd s = .next s.closing.visitClose.respond := by
  obtain ⟨n, hrun⟩ := exec_eq_run_visitCheck hq (i := .closeCmd) rfl
  have hcheck : (s.accept (Instr.closeCmd.load s.regs)).visitCheck = s.closing := rfl
  have hresets : s.closing.resets = [] := hq.2
  have hidle : s.closing.fsm ≠ .idle := nofun
  rw [hrun, hcheck, run_of_visit_resp hresets hidle (visitClose_fsm s.closing)]
  rfl

/-- Settles O18: `S_CLOSE` clears `opened` before its call, and the latch holds what the call returned. -/
theorem closeClearsOpenedAndTearsDown : Obligations.CloseClearsOpenedAndTearsDown := by
  intro s i hcmd hq
  rw [exec_eq_close hcmd]
  have hexec := exec_close hq
  have hframe := exec_lifecycleFrame (.inr rfl) hq hexec
  refine ⟨_, hexec, visitClose_opened _, visitClose_trace _, ?hr, rfl, hframe.hb, exec_hc hexec, exec_cfg hexec,
    exec_resets_of_nil hq.2 hexec, hframe.devError, visitClose_draws _, fun hi => (hframe.idle hi).1⟩
  have hways := visitClose_cases s.closing
  rw [show s.closing.nextStatus = s.nextStatus from rfl] at hways
  rcases hways with ⟨h0, e⟩ | ⟨hfail, e⟩
  · have hregs : s.closing.visitClose.regs = s.closing.regs := by rw [e, goto_regs, peripheralClose_regs]
    rw [respond_hr, if_pos h0, h0, response_of_clean (hregs ▸ ⟨rfl, rfl⟩) (hregs ▸ rfl) (hregs ▸ nofun)]
  · rw [respond_hr, if_neg hfail, e, deviceError_response]

end Sys2Proof.Machine
end

section
/-! Settling the statement of spec/46_queries.md: what `S_CHECK` does with a query's opcode, and the response that
follows (R180 to R185). -/

namespace Sys2Proof.Machine

/-- R180 to R183: `S_CHECK` answers the value that belongs to the query's opcode. -/
theorem visitCheck_of_mem_queryValues {s : State} {v : Nat} (h : (s.regs.op, v) ∈ queryValues s.cfg) :
    s.visitCheck = { s with regs := s.regs.clearLatch }.answerValue v := by
  simp only [queryValues, List.mem_cons, Prod.mk.injEq, List.not_mem_nil, or_false] at h
  rcases h with ⟨hop, rfl⟩ | ⟨hop, rfl⟩ | ⟨hop, rfl⟩ | ⟨hop, rfl⟩ <;> simp [State.visitCheck, hop]

/-- R89: the response of an Ok latch carries `value`, and no string but for GET_TYPE. -/
theorem response_of_ok {s : State} (hok : s.regs.stKind = .ok) (h9 : s.regs.op ≠ 9) :
    s.response = ⟨.ok, s.regs.stInfo, s.regs.value, []⟩ := by
  have hstr : ¬(s.regs.op = 9 ∧ s.regs.stKind = .ok) := fun ⟨e, _⟩ => h9 e
  rw [State.response, if_pos hok, if_neg hstr, hok]

/-- R185: a query loads its opcode only and needs no buffer. -/
theorem load_of_mem_queryValues {i : Instr} {c : Config} {v : Nat} (h : (i.opcode, v) ∈ queryValues c) (s : State) :
    i.load s.regs = { s.regs with op := i.opcode } ∧ s.bufferFits i = true := by
  have hop : ¬i.opcode.toNat < 5 := fun hlow => not_query_of_opcode (.inl hlow) h
  cases i
  case size | getReadSize | getProgramSize | getEraseSize | getType => exact ⟨rfl, rfl⟩
  all_goals exact absurd (by simp [Instr.opcode]) hop

/-- R180 to R183, R185: a query that answers a value is answered in the step after `S_CHECK`, and changes no register but
`op`, the status latch and `value`. -/
theorem exec_of_mem_queryValues {i : Instr} {s : State} {v : Nat} (hq : s.quiet)
    (h : (i.opcode, v) ∈ queryValues s.cfg) :
    exec i s = .next { s with
      regs := { s.regs with op := i.opcode, stKind := .ok, stInfo := 0, value := v }
      hr := some ⟨.ok, 0, v, []⟩, trace := [] } := by
  obtain ⟨hload, hfits⟩ := load_of_mem_queryValues h s
  have h9 : i.opcode ≠ 9 := fun e => not_query_of_opcode (.inr (by simp [e])) h
  have hcheck := visitCheck_of_mem_queryValues (s := s.accept (i.load s.regs)) (by simpa using h)
  rw [exec_of_check (r := { (i.load s.regs).clearLatch with value := v }) hq hfits hcheck,
    response_of_ok rfl (by simpa using h9), hload]
  rfl

/-- R184, R185: GET_TYPE passes `S_CHECK` with a clear latch, and its response carries the type string. -/
theorem exec_getType {s : State} (hq : s.quiet) :
    exec .getType s = .next { s with
      regs := { s.regs with op := 9, stKind := .ok, stInfo := 0, value := 0 }
      hr := some ⟨.ok, 0, 0, s.cfg.typeString⟩, trace := [] } := by
  have hcheck : (s.accept (Instr.getType.load s.regs)).visitCheck =
      (s.accept (Instr.getType.load s.regs).clearLatch).goto .resp := rfl
  exact exec_of_check hq rfl hcheck

/-- Settles O21: SIZE and the granularity queries by the value of their opcode, GET_TYPE by its string. -/
theorem queriesAnswerTheConfiguration : Obligations.QueriesAnswerTheConfiguration := by
  intro s hq
  refine ⟨?size, ?getReadSize, ?getProgramSize, ?getEraseSize, exec_getType hq⟩
  all_goals exact exec_of_mem_queryValues hq (by simp [queryValues, Instr.opcode])

end Sys2Proof.Machine
end

section
/-! Settling the statements of spec/47_peripheral_primitives.md: where a command stands in the order of its calls in each
sequencer state (R200), and the samples of an idle device (R203). -/

namespace Sys2Proof.Machine

/-! ### The rows of R200 -/

/-- R93, R200: the order of a command's calls is that of its opcode, under either of its names and for all operands. -/
theorem callOrder_of_opcode (i : Instr) (n : Nat) :
    (i.opcode = 0 → i.callOrder n = Instr.openCmd.callOrder n) ∧
      (i.opcode = 1 → i.callOrder n = Instr.closeCmd.callOrder n) ∧
      (i.opcode = 2 → i.callOrder n = (Instr.read true 0 0).callOrder n) ∧
      (i.opcode = 3 → i.callOrder n = (Instr.program true 0 0).callOrder n) ∧
      (i.opcode = 4 → i.callOrder n = (Instr.erase 0 0).callOrder n) := by
  cases i <;> simp [Instr.opcode] <;> rfl

/-- R200: a trace that is in order and grows by the call its position waits for is in order. -/
theorem position_append {i : Instr} {n k m : Nat} {tr : List Prim} {p : Prim} (h : i.position n tr = some k)
    (hp : i.callOrder n k p = some m) : i.position n (tr ++ [p]) = some m := by
  rw [Instr.position, List.foldlM_append]
  rw [Instr.position] at h
  simp [h, hp]

/-- R200: a query's row is empty. -/
theorem trace_of_query {i : Instr} {n : Nat} {tr : List Prim} (hi : 5 ≤ i.opcode.toNat)
    (h : (i.position n tr).isSome = true) : tr = [] := by
  cases tr with
  | nil => rfl
  | cons p tr =>
    have hnone : i.callOrder n 0 p = none := by
      cases i
      case size | getReadSize | getProgramSize | getEraseSize | getType => rfl
      all_goals simp [Instr.opcode] at hi
    simp [Instr.position, hnone] at h

/-! ### The position of a command in a sequencer state -/

/-- R200: `k` is a position at which a command can be in its sequencer state. -/
def State.AtPosition (s : State) (k : Nat) : Prop :=
  match s.fsm with
  | .check => k = 0
  | .xlate | .bank | .adv => k = 0 ∨ s.regs.op ≠ 2 ∧ 3 ≤ k
  | .seg | .xfer => k = 1
  | .poll => k = 2 + (s.cfg.pollLimit - s.regs.pollCnt)
  | .hsOpen => s.regs.op = 0 ∧ k = 0
  | .hsWren => s.regs.op = 0 ∧ k = 1
  | .hsWrsr => s.regs.op = 0 ∧ k = 2
  | .hsRdbk => s.regs.op = 0 ∧ k = 3
  | .hsRead => s.regs.op = 0 ∧ k = 4
  | .close => s.regs.op = 1 ∧ k = 0
  | .idle | .resp => True

/-- R23: the sequencer states whose visit is a primitive call. -/
def Fsm.calls : Fsm → Bool
  | .bank | .xfer | .poll | .hsOpen | .hsWren | .hsWrsr | .hsRdbk | .hsRead | .close => true
  | _ => false

/-- R200: the position after a visit, from the position `k` before it. -/
def State.nextPosition (s : State) (k : Nat) : Nat :=
  match s.fsm with
  | .bank => 1
  | .xfer => if s.regs.op = 2 then 0 else 2
  | f => if f.calls then k + 1 else k

section
variable {s t : State} {k : Nat}

/-- A visit of a sequencer state that calls makes its call. -/
theorem State.Exit.trace_ne (h : s.Exit t) (hf : s.fsm.calls = true) : t.trace ≠ s.trace := by
  cases h
  case issues hm _ | issueFails hm _ => cases hm <;> simp
  case called hc _ | callFails hc _ => cases hc <;> simp
  all_goals simp_all [Fsm.calls, State.xferRead]

/-- The call of a sequencer state is the one that the command's row has at its position. -/
theorem State.Logs.callOrder {p : Prim} {i : Instr} (h : s.Logs p) (hop : s.regs.op = i.opcode) (hl : s.loopOk)
    (hk : s.AtPosition k) : i.callOrder s.cfg.pollLimit k p = some (s.nextPosition k) := by
  obtain ⟨hopen, hclose, hread, hprogram, herase⟩ := callOrder_of_opcode i s.cfg.pollLimit
  rw [← hop] at hopen hclose hread hprogram herase
  unfold State.AtPosition at hk
  unfold State.nextPosition
  cases h
  case bankSelect hf =>
    simp only [hf] at hk ⊢
    rcases hl.op (by rw [hf]; rfl) with e | e | e
    · exact (congrFun₂ (hread e) k _).trans (if_pos (hk.resolve_right fun h => h.1 e))
    · exact (congrFun₂ (hprogram e) k _).trans (if_pos (hk.imp_right And.right))
    · exact (congrFun₂ (herase e) k _).trans (if_pos (hk.imp_right And.right))
  case memRead hf e =>
    simp only [hf, e] at hk ⊢
    exact hk ▸ congrFun₂ (hread e) 1 _
  case program hf e =>
    simp only [hf, e] at hk ⊢
    exact hk ▸ congrFun₂ (hprogram e) 1 _
  case eraseBlock hf h2 h3 =>
    have e := ((hl.op (by rw [hf]; rfl)).resolve_left h2).resolve_left h3
    simp only [hf, e] at hk ⊢
    exact hk ▸ congrFun₂ (herase e) 1 _
  case statusGet hf =>
    obtain ⟨h2, hcnt, hle⟩ := hl.poll hf
    simp only [hf] at hk ⊢
    have hin : 2 ≤ k ∧ k < 2 + s.cfg.pollLimit := by omega
    rcases (hl.op (by rw [hf]; rfl)).resolve_left h2 with e | e
    · exact (congrFun₂ (hprogram e) k _).trans (if_pos hin)
    · exact (congrFun₂ (herase e) k _).trans (if_pos hin)
  case peripheralOpen hf | directRead hf =>
    simp only [hf] at hk ⊢
    obtain ⟨e, rfl⟩ := hk
    exact congrFun₂ (hopen e) _ _
  case directWrite hf =>
    rcases hf with hf | hf | hf <;> simp only [hf] at hk ⊢ <;> obtain ⟨e, rfl⟩ := hk <;> exact congrFun₂ (hopen e) _ _
  case peripheralClose hf =>
    simp only [hf] at hk ⊢
    obtain ⟨e, rfl⟩ := hk
    exact congrFun₂ (hclose e) _ _

theorem State.Calls.atPosition {f : Fsm} (h : s.Calls t f) (hk : s.AtPosition k) :
    (t.goto f).AtPosition (s.nextPosition k) := by
  cases h <;> simp_all [State.AtPosition, State.nextPosition, Fsm.calls]

/-- Every way out of a sequencer state leads to a state that the next position is one of. -/
theorem State.Exit.atPosition (h : s.Exit t) (hl : s.loopOk) (hk : s.AtPosition k) :
    t.AtPosition (s.nextPosition k) := by
  cases h
  case lifecycle hf hop =>
    rcases hop with ⟨e, rfl⟩ | ⟨e, rfl⟩
    · cases ho : s.opened <;> simp_all [State.AtPosition, State.nextPosition, Fsm.calls]
    · simp_all [State.AtPosition, State.nextPosition, Fsm.calls]
  case loads hf _ _ | loadsErase hf _ _ =>
    by_cases hz : s.regs.len = 0 <;> simp_all [State.AtPosition, State.nextPosition, Fsm.calls]
  case translates hf => simpa [State.AtPosition, State.nextPosition, State.visitXlate, hf, Fsm.calls] using hk
  case measures hf => simpa [State.AtPosition, State.nextPosition, State.visitSeg, hf, Fsm.calls] using hk
  case copies hf h2 => simp [State.AtPosition, State.nextPosition, State.xferRead, hf, h2]
  case issues hf h2 hm _ =>
    simp only [State.AtPosition, State.nextPosition, hf, startPoll_fsm, startPoll_regs, startPoll_cfg, Nat.sub_self]
    exact if_neg h2
  case completes hf _ _ =>
    obtain ⟨h2, -⟩ := hl.poll hf
    simp only [State.AtPosition, State.nextPosition, hf, goto_fsm, goto_regs, statusGet_regs, Fsm.calls,
      if_true] at hk ⊢
    exact .inr ⟨h2, by omega⟩
  case pollsAgain hf _ _ hc =>
    obtain ⟨-, -, hle⟩ := hl.poll hf
    simp only [State.AtPosition, State.nextPosition, hf, statusGet_fsm, statusGet_cfg, Fsm.calls, if_true] at hk ⊢
    omega
  case advances hf =>
    have hnext : s.visitAdv.fsm = .xlate ∨ s.visitAdv.fsm = .resp := by
      simp only [State.visitAdv]
      split <;> simp
    simp only [State.AtPosition, hf] at hk
    rcases hnext with e | e
    · simpa [State.AtPosition, State.nextPosition, visitAdv_regs, Regs.advance, Fsm.calls, e, hf] using hk
    · simp [State.AtPosition, e]
  case called hc _ => exact hc.atPosition hk
  all_goals simp_all [State.AtPosition]

end

/-- R200: the calls that a command has made are a beginning of its order, and where its state stands in it. -/
structure State.CallsInOrder (i : Instr) (s : State) : Prop where
  legal    : s.CallsLegally
  op       : s.fsm ≠ .idle → s.regs.op = i.opcode
  position : ∃ k, i.position s.cfg.pollLimit s.trace = some k ∧ s.AtPosition k

section
variable {i : Instr} {s t : State}

/-- A visit that calls moves the position on, and every other leaves it. -/
theorem State.Exit.position {k : Nat} (h : s.Exit t) (hop : s.regs.op = i.opcode) (hl : s.loopOk)
    (hk : s.AtPosition k) (htr : i.position s.cfg.pollLimit s.trace = some k) :
    i.position s.cfg.pollLimit t.trace = some (s.nextPosition k) := by
  rcases h.logs with e | ⟨p, hp, e⟩
  · have hf : s.fsm.calls ≠ true := fun hf => h.trace_ne hf e
    have hstay : s.nextPosition k = k := by
      unfold State.nextPosition
      split <;> simp_all [Fsm.calls]
    rw [e, hstay, htr]
  · rw [e]
    exact position_append htr (hp.callOrder hop hl hk)

theorem visit_callsInOrder (h : s.CallsInOrder i) : s.visit.CallsInOrder i := by
  by_cases hi : s.fsm = .idle
  · rwa [show s.visit = s by rw [State.visit, hi]]
  · obtain ⟨k, htr, hk⟩ := h.position
    have e := visit_exit s
    have hl := h.legal.loop
    exact {
      legal := visit_callsLegally h.legal
      op := fun _ => e.op.trans (h.op hi)
      position := ⟨s.nextPosition k, by rw [visit_cfg]; exact e.position (h.op hi) hl hk htr, e.atPosition hl hk⟩ }

/-- R243: a reset ends a command anywhere in its order. -/
theorem takeReset_callsInOrder (h : s.CallsInOrder i) : s.takeReset.CallsInOrder i where
  legal := takeReset_callsLegally h.legal
  op := fun hi => absurd rfl hi
  position := by
    obtain ⟨k, htr, -⟩ := h.position
    exact ⟨k, htr, trivial⟩

theorem tick_callsInOrder (h : s.CallsInOrder i) : s.tick.CallsInOrder i :=
  tick_keeps (P := State.CallsInOrder i) (fun _ r ⟨hlegal, hop, hpos⟩ => ⟨withResets_callsLegally hlegal r, hop, hpos⟩)
    (fun _ => visit_callsInOrder) (fun _ => takeReset_callsInOrder) h

/-- R200: the calls of a command are a beginning of its order. -/
theorem exec_position (hc : s.cfg.wf = true) (h : exec i s = .next t) :
    (i.position s.cfg.pollLimit t.trace).isSome = true := by
  obtain ⟨hb, -, -⟩ := exec_next h
  have hacc : (s.accept (i.load s.regs)).CallsInOrder i :=
    ⟨⟨hc, loopOk_of_outside rfl, accept_bufferOk hb, nofun⟩, fun _ => load_op i _, 0, rfl, rfl⟩
  have hend : t.CallsInOrder i := exec_keeps h hacc fun _ _ => tick_callsInOrder
  obtain ⟨k, htr, -⟩ := hend.position
  rw [← exec_cfg h, htr]
  rfl

/-! ### Commands that make no call -/

/-- R170: an OPEN that has found the block open, or is about to, and has called nothing. -/
structure State.RepeatsOpen (s : State) : Prop where
  trace : s.trace = []
  fsm   : s.fsm = .check ∧ s.regs.op = 0 ∧ s.opened = true ∨ s.fsm = .resp ∨ s.fsm = .idle

theorem visit_repeatsOpen (h : s.RepeatsOpen) : s.visit.RepeatsOpen := by
  obtain ⟨htr, ⟨hf, hop, ho⟩ | hf | hf⟩ := h <;> rw [State.visit, hf]
  · exact visitCheck_of_opened hop ho ▸ ⟨htr, .inr (.inl rfl)⟩
  · exact ⟨htr, .inr (.inr rfl)⟩
  · exact ⟨htr, .inr (.inr hf)⟩

/-- R170: OPEN on an open block calls nothing, a reset or not. -/
theorem exec_trace_of_opened (hop : i.opcode = 0) (ho : s.opened = true) (h : exec i s = .next t) : t.trace = [] := by
  have hacc : (s.accept (i.load s.regs)).RepeatsOpen := ⟨rfl, .inl ⟨rfl, (load_op i _).trans hop, ho⟩⟩
  have hend : t.RepeatsOpen := exec_keeps h hacc fun _ _ => tick_keeps (P := State.RepeatsOpen)
    (fun _ _ ⟨htr, hf⟩ => ⟨htr, hf⟩) (fun _ => visit_repeatsOpen) (fun _ ⟨htr, _⟩ => ⟨htr, .inr (.inr rfl)⟩)
  exact hend.trace

/-- R87: a reserved encoding calls nothing, answered or cut off by a reset. -/
theorem runDescriptor_trace_of_reserved {d : Descriptor} {e : Reserved} (hd : decode d = .error e)
    (h : runDescriptor d s = .next t) : t.trace = [] := by
  obtain ⟨hi, -⟩ := runDescriptor_next h
  have hrun : runDescriptor d s = s.commandReserved (cmdOp d.cmd) := by rw [runDescriptor, hd]
  rw [hrun] at h
  match hr : s.resets with
  | [] =>
    obtain ⟨r, e⟩ := commandReserved_of_noReset hi (cmdOp d.cmd) hr
    exact Host.Outcome.next.inj (h.symm.trans e) ▸ rfl
  | 0 :: _ | 1 :: _ =>
    obtain ⟨r, e⟩ := commandReserved_of_soon hi (cmdOp d.cmd) hr (by omega)
    exact Host.Outcome.next.inj (h.symm.trans e) ▸ rfl
  | (_ + 2) :: _ =>
    obtain ⟨r, e⟩ := commandReserved_of_later hi (cmdOp d.cmd) hr
    exact Host.Outcome.next.inj (h.symm.trans e) ▸ rfl

end

/-- Settles O45: the position in the order goes along with the sequencer's state; the rows of the queries are empty. -/
theorem commandsCallTheirPrimitivesInOrder : Obligations.CommandsCallTheirPrimitivesInOrder := by
  refine ⟨fun i s t hc h => ?_, fun d e s t => runDescriptor_trace_of_reserved⟩
  have hpos := exec_position hc h
  exact ⟨hpos, fun hop ho => exec_trace_of_opened hop ho h, fun hi => trace_of_query hi hpos⟩

/-! ### The samples of an idle device (R203) -/

theorem statusGet_flash_of_idle {s : State} (h : s.inFlight = none) : s.statusGet.flash = s.flash := by
  simp [State.statusGet, called_flash_of_idle h]

/-- Settles O13: with nothing in flight there is nothing for a call to complete. -/
theorem idleDeviceStaysIdleUnderSamples : Obligations.IdleDeviceStaysIdleUnderSamples := by
  intro s hidle
  have hnone : s.inFlight = none := by simpa [State.busy] using hidle
  refine ⟨sampleBusy_of_idle hnone, ?_, statusGet_flash_of_idle hnone⟩
  simp [State.busy, statusGet_inFlight_of_idle hnone]

end Sys2Proof.Machine
end

section
/-! Settling the statements of spec/60_exceptions.md: what a command reports is its first failure (R214, R216, R217).
As long as every call has succeeded the latch is clear; the visit that ends a command early writes the reason of its end
to the latch, and makes no call but the one that failed. -/

namespace Sys2Proof.Machine

/-! ### The response is that of the registers the command leaves -/

section
variable {s t : State}

theorem State.Mutates.hr (h : s.Mutates t) : t.hr = s.hr := by
  cases h <;> simp

theorem State.Calls.hr {f : Fsm} (h : s.Calls t f) : t.hr = s.hr := by
  cases h <;> simp

/-- R216: no visit but that of `S_RESP` delivers a response. -/
theorem State.Exit.hr (h : s.Exit t) (ht : t.fsm ≠ .idle) : t.hr = s.hr := by
  cases h
  case issues hm _ | issueFails hm _ => simp [hm.hr]
  case called hc _ | callFails hc _ => simp [hc.hr]
  case responds => simp at ht
  all_goals simp [State.visitXlate, State.visitSeg, State.xferRead, State.visitAdv]

/-- R89: a command that has a response has ended, and the response is that of its registers. -/
theorem exec_response {i : Instr} {r : Response} (hr : s.resets = []) (h : exec i s = .next t) (ht : t.hr = some r) :
    t.fsm = .idle ∧ r = t.response := by
  have hend : if t.fsm = .idle then t.hr = some t.response else t.hr = none := by
    refine exec_keeps_of_visit (P := fun u => if u.fsm = .idle then u.hr = some u.response else u.hr = none) hr h rfl ?_
    intro u hi hu
    by_cases hv : u.visit.fsm = .idle
    · rw [visit_eq_respond hi hv]
      rfl
    · rw [if_neg hi] at hu
      rw [if_neg hv, (visit_exit u).hr hv, hu]
  split at hend
  · exact ⟨by assumption, Option.some.inj (ht.symm.trans hend)⟩
  · simp [hend] at ht

/-! ### The calls that have succeeded, and what the latch says of them -/

/-- R214: every call of the trace has succeeded. -/
def Succeeded (tr : List Prim) : Prop := ∀ e ∈ tr, e.code = 0

theorem Succeeded.append {tr : List Prim} {p : Prim} (h : Succeeded tr) (hp : p.code = 0) : Succeeded (tr ++ [p]) := by
  intro e he
  rcases List.mem_append.1 he with he | he
  · exact h e he
  · exact List.mem_singleton.1 he ▸ hp

/-- R216: the latch carries the code of the last call, the first to fail, or none of the calls has failed; OPEN's
mismatch is the one error of the device that no call has returned (R171). -/
def State.ReportsFirstFailure (s : State) : Prop :=
  (s.regs.stKind = .deviceError →
    (∃ before last, s.trace = before ++ [last] ∧ Succeeded before ∧ last.code ≠ 0 ∧ s.regs.stInfo = last.code) ∨
      (s.regs.op = 0 ∧ Succeeded s.trace ∧ s.regs.stInfo = s.cfg.openMismatchCode)) ∧
  (s.regs.stKind ≠ .deviceError → s.regs.stInfo = 0 ∧ Succeeded s.trace)

/-- R217: no call has failed so far, and from `S_CHECK` on the latch is clear. -/
def State.Unfailing (s : State) : Prop :=
  Succeeded s.trace ∧ (s.fsm ≠ .check → s.regs.stKind = .ok ∧ s.regs.stInfo = 0)

/-- R190: one call has been made since `s`, and it returned the status that the oracle had for it. -/
def State.CallsOnce (s t : State) : Prop := ∃ p, t.trace = s.trace ++ [p] ∧ p.code = s.nextStatus

theorem State.Mutates.callsOnce (h : s.Mutates t) : s.CallsOnce t := by
  cases h
  case program => exact ⟨_, program_trace .., rfl⟩
  case erase => exact ⟨_, eraseBlock_trace .., rfl⟩

theorem State.Calls.callsOnce {f : Fsm} (h : s.Calls t f) : s.CallsOnce t := by
  cases h
  case bank => exact ⟨_, bankSelect_trace .., rfl⟩
  case hsOpen => exact ⟨_, peripheralOpen_trace _, rfl⟩
  case hsWren | hsWrsr | hsRdbk => exact ⟨_, directWrite_trace .., rfl⟩
  case close => exact ⟨_, peripheralClose_trace _, rfl⟩

theorem statusGet_callsOnce (s : State) : s.CallsOnce s.statusGet := ⟨_, statusGet_trace s, rfl⟩

theorem directRead_callsOnce (n : Nat) (s : State) : s.CallsOnce (s.directRead n) := ⟨_, directRead_trace n s, rfl⟩

/-- A call that succeeds leaves the command without a failure. -/
theorem State.Unfailing.call (h : s.Unfailing) (hf : s.fsm ≠ .check) (hc : s.CallsOnce t) (h0 : s.nextStatus = 0)
    (hkind : t.regs.stKind = s.regs.stKind) (hinfo : t.regs.stInfo = s.regs.stInfo) : t.Unfailing := by
  obtain ⟨hsucc, hclear⟩ := h
  obtain ⟨p, htrace, hcode⟩ := hc
  exact ⟨htrace ▸ hsucc.append (hcode.trans h0), fun _ => by rw [hkind, hinfo]; exact hclear hf⟩

/-- R216: a call that fails after none has ends the command with its code. -/
theorem State.Unfailing.failed_call (h : s.Unfailing) (hc : s.CallsOnce t) (hfail : s.nextStatus ≠ 0) :
    (t.raise .deviceError s.nextStatus).ReportsFirstFailure := by
  obtain ⟨p, htrace, hcode⟩ := hc
  exact ⟨fun _ => .inl ⟨s.trace, p, htrace, h.1, hcode ▸ hfail, hcode.symm⟩, fun hne => absurd rfl hne⟩

/-- R211 to R213: an end for another reason than the device carries no code. -/
theorem reports_of_other_reason {k : Kind} (hk : k ≠ .deviceError) (h : Succeeded t.trace) :
    (t.raise k 0).ReportsFirstFailure := ⟨fun he => absurd he hk, fun _ => ⟨rfl, h⟩⟩

/-- A command that ends without a failure reports none. -/
theorem State.Unfailing.reports (h : s.Unfailing) (hf : s.fsm ≠ .check) : s.ReportsFirstFailure := by
  obtain ⟨hsucc, hclear⟩ := h
  obtain ⟨hkind, hinfo⟩ := hclear hf
  exact ⟨fun he => by simp [hkind] at he, fun _ => ⟨hinfo, hsucc⟩⟩

/-! ### Every way out of a sequencer state keeps account -/

/-- R172: the sequencer states of the handshake. -/
def Fsm.inHandshake : Fsm → Bool
  | .hsOpen | .hsWren | .hsWrsr | .hsRdbk | .hsRead => true
  | _ => false

/-- The handshake is entered from `S_CHECK` of an OPEN only. -/
theorem State.Exit.inHandshake (h : s.Exit t) (ht : t.fsm.inHandshake = true) :
    s.fsm.inHandshake = true ∨ s.regs.op = 0 := by
  cases h
  case lifecycle hop =>
    rcases hop with ⟨h0, -⟩ | ⟨-, rfl⟩
    · exact .inr h0
    · simp [Fsm.inHandshake] at ht
  case called hc _ => cases hc <;> simp [Fsm.inHandshake, *] at ht ⊢
  case loads | loadsErase => by_cases hl : s.regs.len = 0 <;> simp [Fsm.inHandshake, hl] at ht
  case advances => simp only [State.visitAdv] at ht; split at ht <;> simp [Fsm.inHandshake] at ht
  all_goals simp [Fsm.inHandshake, State.visitXlate, State.visitSeg, State.xferRead, *] at ht ⊢

/-- A visit after which no call has failed, or which ended the command with a report of its first failure. -/
theorem State.Unfailing.exit (hs : s.Unfailing) (h : s.Exit t) (hread : s.fsm = .hsRead → s.regs.op = 0) :
    t.Unfailing ∨ t.fsm = .resp ∧ t.ReportsFirstFailure := by
  have ⟨hsucc, hclear⟩ := hs
  cases h
  case lifecycle | loads | loadsErase | answers | answersType => exact .inl ⟨hsucc, fun _ => ⟨rfl, rfl⟩⟩
  case rejects k _ hk =>
    have hne : k ≠ .deviceError := by rcases hk with ⟨rfl, -⟩ | ⟨rfl, -⟩ <;> decide
    exact .inr ⟨rfl, reports_of_other_reason hne hsucc⟩
  case waits => exact .inl ⟨hsucc, hclear⟩
  case translates hf | measures hf | advances hf | responds hf =>
    exact .inl ⟨hsucc, fun _ => hclear (by simp [hf])⟩
  case copies hf _ =>
    refine .inl ⟨?_, fun _ => by simpa [State.xferRead] using hclear (by simp [hf])⟩
    rw [show s.xferRead.trace = _ from memRead_trace ..]
    exact hsucc.append rfl
  case issues hf _ hm h0 =>
    exact .inl (hs.call (by simp [hf]) hm.callsOnce h0 (by simp [hm.regs]) (by simp [hm.regs]))
  case called f hc h0 =>
    exact .inl (hs.call hc.fsm_ne_check hc.callsOnce h0 (by simp [hc.regs]) (by simp [hc.regs]))
  case completes hf h0 _ | pollsAgain hf h0 _ _ =>
    exact .inl (hs.call (by simp [hf]) (statusGet_callsOnce s) h0 (by simp) (by simp))
  case opens hf h0 _ => exact .inl (hs.call (by simp [hf]) (directRead_callsOnce _ s) h0 (by simp) (by simp))
  case issueFails hm h0 => exact .inr ⟨rfl, hs.failed_call hm.callsOnce h0⟩
  case callFails hc h0 => exact .inr ⟨rfl, hs.failed_call hc.callsOnce h0⟩
  case pollFails h0 => exact .inr ⟨rfl, hs.failed_call (statusGet_callsOnce s) h0⟩
  case readBackFails h0 => exact .inr ⟨rfl, hs.failed_call (directRead_callsOnce _ s) h0⟩
  case timesOut h0 _ _ =>
    refine .inr ⟨rfl, reports_of_other_reason nofun ?_⟩
    rw [late_trace]
    exact (statusGet_trace s).symm ▸ hsucc.append h0
  case mismatches hf h0 _ =>
    refine .inr ⟨rfl, fun _ => .inr ⟨by simpa using hread hf, ?_, by simp⟩, fun hne => absurd rfl hne⟩
    rw [raise_trace, directRead_trace]
    exact hsucc.append h0

/-- R214, R217: the command has made no failing call, or has ended with a report of it. -/
structure State.KeepsAccount (s : State) : Prop where
  handshake : s.fsm.inHandshake = true → s.regs.op = 0
  account   : s.Unfailing ∨ (s.fsm = .resp ∨ s.fsm = .idle) ∧ s.ReportsFirstFailure

theorem visit_keepsAccount (hi : s.fsm ≠ .idle) (h : s.KeepsAccount) : s.visit.KeepsAccount := by
  obtain ⟨hhand, hacc⟩ := h
  have e := visit_exit s
  refine ⟨fun ht => e.op.trans ((e.inHandshake ht).elim hhand id), ?_⟩
  rcases hacc with hun | ⟨hresp | hidle, hrep⟩
  · exact (hun.exit e fun hf => hhand (by rw [hf]; rfl)).imp_right fun ⟨hf, hrep⟩ => ⟨.inl hf, hrep⟩
  · rw [show s.visit = s.respond by rw [State.visit, hresp]]
    exact .inr ⟨.inr rfl, hrep⟩
  · exact absurd hidle hi

end

/-- Settles O42: along the run no call fails until one ends it, and the response is what the latch then holds. -/
theorem errorsReportTheFirstFailure : Obligations.ErrorsReportTheFirstFailure := by
  rintro i s t r ⟨-, hr⟩ h ht
  obtain ⟨hidle, rfl⟩ := exec_response hr h ht
  have hacc : t.KeepsAccount := exec_keeps_of_visit hr h ⟨nofun, .inl ⟨nofun, fun hne => absurd rfl hne⟩⟩
    fun _ => visit_keepsAccount
  have hrep : t.ReportsFirstFailure := hacc.account.elim (fun hun => hun.reports (by simp [hidle])) And.right
  have hop : t.regs.op = i.opcode := exec_keeps_of_exit (P := fun u => u.regs.op = i.opcode) hr h (load_op i _)
    fun u v e hu => e.op.trans hu
  rw [State.ReportsFirstFailure, hop, exec_cfg h] at hrep
  exact hrep

end Sys2Proof.Machine
end

section
/-! Settling the statements of spec/60_exceptions.md: a mutation whose device never finishes (R213, R219). Its
sequencer steps are followed one by one to the poll of its first segment, whose samples are then counted. -/

namespace Sys2Proof.Machine

/-! ### Runs as sequencer steps -/

section
variable {a s : State} {n : Nat}

/-- A run that is not idle before its last step is its sequencer steps. -/
theorem run_eq_ticks (h : ∀ m, m < n → (a.ticks m).fsm ≠ .idle) : a.run n = a.ticks n := by
  induction n with
  | zero => rfl
  | succ n ih =>
    rw [run_add, ih fun m hm => h m (by omega), run_succ (h n (by omega)), run_zero, ticks_succ_eq_tick]

/-- R23: a command leaves the idle state that a run from its acceptance comes to. -/
theorem exec_of_run_idle {i : Instr} {t : State} (hc : s.cfg.wf = true) (hb : s.bufferFits i = true)
    (hi : s.fsm = .idle) (hrun : (s.accept (i.load s.regs)).run n = t) (ht : t.fsm = .idle) : exec i s = .next t := by
  have hexec := exec_of_idle hb hi
  rw [hexec, run_eq_of_idle (exec_fsm hc hexec) (hrun ▸ ht), hrun]

end

/-! ### The poll of a device that stays busy -/

section
variable {s p : State} {i : Nat}

theorem late_inFlight_isSome (d : Drawn) (s : State) : (s.late d).inFlight.isSome = s.inFlight.isSome := by
  unfold State.late
  split <;> simp [*]

/-- R219: a sample that says busy changes neither the bank nor the lifecycle, and the operation stays in flight, though
the poll may run out with it. -/
theorem tick_of_busy (hf : s.fsm = .poll) (hr : s.resets = []) (h0 : s.nextStatus = 0) (hb : s.sampleBusy = true) :
    s.tick.activeBank = s.activeBank ∧ s.tick.opened = s.opened ∧ s.tick.inFlight.isSome = true := by
  have hflight : s.statusGet.inFlight.isSome = true := hb
  rw [tick_of_poll hf hr]
  rcases visitPoll_cases s with ⟨h, -⟩ | ⟨-, h, -⟩ | ⟨-, -, -, e⟩ | ⟨-, -, -, e⟩
  · exact absurd h0 h
  · simp [hb] at h
  · simp [e, late_inFlight_isSome, hflight]
  · simp [e, hflight]

/-- R219: so do as many busy samples as the counter allows. -/
theorem State.PollsBusy.ticks_unchanged (h : p.PollsBusy 0 p) (hb : ∀ k, k < i → p.AnswersBusy k)
    (hc : i ≤ p.regs.pollCnt) : (p.ticks i).activeBank = p.activeBank ∧ (p.ticks i).opened = p.opened ∧
      (p.ticks i).inFlight.isSome = true := by
  induction i with
  | zero => exact ⟨rfl, rfl, h.inFlight⟩
  | succ i ih =>
    obtain ⟨hbank, hopened, -⟩ := ih (fun k hk => hb k (by omega)) (by omega)
    have hi : p.PollsBusy i (p.ticks i) := h.ticks (fun k hk => hb k (by omega)) hc
    obtain ⟨h0, hset⟩ := hb i (Nat.lt_succ_self i)
    rw [ticks_succ_eq_tick, ← hbank, ← hopened]
    exact tick_of_busy hi.fsm hi.resets (hi.nextStatus.trans h0) (by rw [hi.sampleBusy, hset]; rfl)

/-- R89: an error carries no value and no string. -/
theorem response_of_error (h : s.regs.stKind ≠ .ok) : s.response = Response.status s.regs.stKind s.regs.stInfo := by
  simp [State.response, Response.status, h]

/-- What a poll leaves that has run out, and the response to it: the operation is still in flight. -/
structure State.TimesOut (p t : State) : Prop where
  hr         : t.hr = some (Response.status .timeout 0)
  trace      : t.trace = p.trace ++ List.replicate p.regs.pollCnt (.statusGet 0 true)
  activeBank : t.activeBank = p.activeBank
  inFlight   : t.inFlight.isSome = true
  opened     : t.opened = p.opened
  fsm        : t.fsm = .idle

/-- R133, R213: a poll of a device that stays busy runs out, and the command ends with it. -/
theorem State.PollsBusy.run_timesOut (h : p.PollsBusy 0 p) (hpos : 0 < p.regs.pollCnt)
    (hb : ∀ k, k < p.regs.pollCnt → p.AnswersBusy k) : p.TimesOut (p.run (p.regs.pollCnt + 1)) := by
  obtain ⟨hends, -⟩ := pollCountsItsSamples p _ h.fsm h.resets h.inFlight rfl hpos
  obtain ⟨hresp, hkind, hinfo, -, htrace⟩ := hends hb
  obtain ⟨hbank, hopened, hflight⟩ := h.ticks_unchanged hb le_rfl
  have hrun : p.run p.regs.pollCnt = p.ticks p.regs.pollCnt := run_eq_ticks fun m hm => by
    have hm : p.PollsBusy m (p.ticks m) := h.ticks (fun k hk => hb k (by omega)) hm
    simp [hm.fsm]
  rw [run_visit h.resets hrun (by simp [hresp]), State.visit, hresp]
  refine ⟨?_, htrace, hbank, hflight, hopened, rfl⟩
  rw [respond_hr, response_of_error (by simp [hkind]), hkind, hinfo]

end

/-! ### The first segment, up to its poll -/

section
variable {s : State} {i : Instr}

/-- R121, R160: the first segment lies in the bank of the address, in both erase modes. -/
theorem translateBank_first {c : Config} (hc : c.wf = true) (op : Opcode) (address : Nat) :
    translateBank c (segmentStart c op (transferStart c op address)) = address / c.window := by
  obtain ⟨-, -, -, -, he, -, -, hed, -⟩ := wf_facts hc
  by_cases h4 : op = 4
  · subst h4
    rw [transferStart, if_pos rfl, segmentStart_eraseStart]
    exact translateBank_eq_of_block hed (by rw [alignDownBlock, Nat.mul_div_cancel _ he])
  · rw [transferStart, if_neg h4, segmentStart_of_ne h4]
    rfl

/-- An accepted `program` or `erase_block` of a ready device is in flight; nothing else has changed but the trace. -/
theorem State.Mutates.of_ready {t : State} (h : s.Mutates t) (hr : s.ready = true) (h0 : s.nextStatus = 0) :
    ∃ f first, t = { s.draw with inFlight := some f, trace := s.trace ++ [first] } ∧ first.code = 0 ∧
      countMutations [first] = 1 := by
  cases h
  · exact ⟨_, _, program_of_ready hr h0 _ _ _, rfl, rfl⟩
  · exact ⟨_, _, eraseBlock_of_ready hr h0 _ _, rfl, rfl⟩

/-- The state in which a transfer on a ready device enters `S_XFER` of its first segment, whose bank is `b`. -/
def State.firstXfer (b : Nat) (r : Regs) (s : State) : State :=
  { s.draw with fsm := .xfer, regs := r, hr := none, trace := [.bankSelect b 0], activeBank := b }

/-- R140, R150, R160: from its acceptance a valid transfer on a ready device comes to its first segment, if the bank is
selected. -/
theorem run_firstXfer (hq : s.quiet) (hc : s.cfg.wf = true) (hready : s.ready = true) (h0 : s.nextStatus = 0)
    (hop : i.opcode = 2 ∨ i.opcode = 3 ∨ i.opcode = 4) (hbuf : i.opcode ≠ 4 → (i.load s.regs).bufValid = true)
    (hlen : 0 < (i.load s.regs).len) (hrange : (i.load s.regs).addr + (i.load s.regs).len ≤ s.cfg.totalSize) :
    ∃ r, r.op = i.opcode ∧ (s.accept (i.load s.regs)).run 4 = s.firstXfer ((i.load s.regs).addr / s.cfg.window) r := by
  obtain ⟨-, hr⟩ := hq
  have hr0 : (s.accept (i.load s.regs)).resets = [] := hr
  have h1 := (run_visit hr0 (run_zero _) nofun).trans
    (visitCheck_of_valid (s := s.accept (i.load s.regs)) (by simpa using hop) (by simpa using hbuf) hrange)
  rw [accept_regs, if_neg hlen.ne'] at h1
  obtain ⟨r, hrop, hbank, h2⟩ : ∃ r, r.op = i.opcode ∧ r.bank = (i.load s.regs).addr / s.cfg.window ∧
      (s.accept (i.load s.regs)).run 2 = (s.accept r).goto .bank :=
    ⟨_, load_op i s.regs, translateBank_first hc _ _, run_visit hr0 h1 nofun⟩
  have hsel : ((s.accept r).goto .bank).visit = (s.firstXfer r.bank r).goto .seg := by
    have hready' : ((s.accept r).goto .bank).ready = true := hready
    have h0' : ((s.accept r).goto .bank).nextStatus = 0 := h0
    rw [State.visit, goto_fsm, State.visitBank, if_pos h0', bankSelect_of_ready hready', h0']
    rfl
  have h3 := (run_visit hr0 h2 nofun).trans hsel
  rw [← hbank]
  exact ⟨{ r with segLen := segmentLength s.cfg r.op r.cursor r.remaining }, hrop, run_visit hr0 h3 nofun⟩

/-- The state in which the poll of the first segment starts, the operation `f` being in flight by the call `first`. -/
def State.firstPoll (b : Nat) (r : Regs) (f : InFlight) (first : Prim) (s : State) : State :=
  { s.draw.draw with
    fsm := .poll, regs := { r with pollCnt := s.cfg.pollLimit }, hr := none, trace := [.bankSelect b 0, first]
    activeBank := b, inFlight := some f }

theorem firstPoll_answer (b : Nat) (r : Regs) (f : InFlight) (first : Prim) (s : State) (k : Nat) :
    (s.firstPoll b r f first).answer k = s.answer (k + 2) :=
  (answer_of_draws (s := s.draw) rfl rfl k).trans (answer_of_draws rfl rfl (k + 1))

/-- R131, R150, R160: an operation of the first segment that is accepted is polled. -/
theorem firstXfer_visit {b : Nat} {r : Regs} (hready : s.ready = true) (hop : r.op ≠ 2)
    (h1 : (s.answer 1).status % 2 ^ s.cfg.perrW = 0) :
    ∃ f first, (s.firstXfer b r).visit = s.firstPoll b r f first ∧ first.code = 0 ∧ countMutations [first] = 1 := by
  have h0 : (s.firstXfer b r).nextStatus = 0 := by
    rw [← answer_of_draws (s := s) (t := s.firstXfer b r) rfl rfl 0] at h1
    exact h1
  obtain ⟨t, hm, ⟨-, e⟩ | ⟨hne, -⟩⟩ := visitXfer_mutates (s := s.firstXfer b r) hop
  · obtain ⟨f, first, rfl, hcode, hcount⟩ := hm.of_ready hready h0
    exact ⟨f, first, e, hcode, hcount⟩
  · exact absurd h0 hne

/-- R213: the poll of the first segment of a device that never finishes runs out. -/
theorem firstPoll_timesOut (b : Nat) (r : Regs) (f : InFlight) (first : Prim) (hr : s.resets = [])
    (hlimit : 0 < s.cfg.pollLimit) (hsucc : s.allSucceed (s.cfg.pollLimit + 2))
    (hnever : ∀ k, k < s.cfg.pollLimit + 2 → (s.answer k).settled = false) :
    (s.firstPoll b r f first).TimesOut ((s.firstPoll b r f first).run (s.cfg.pollLimit + 1)) := by
  have hstart := pollsBusy_zero (s := s.firstPoll b r f first) rfl hr rfl
  refine hstart.run_timesOut hlimit fun k hk => ?_
  have hk : k + 2 < s.cfg.pollLimit + 2 := Nat.add_lt_add_right hk 2
  rw [State.AnswersBusy, firstPoll_answer]
  exact ⟨hsucc _ hk, hnever _ hk⟩

/-- R153, R160, R213: a valid mutation on a ready device that never finishes times out in its first segment. -/
theorem exec_timesOut (hq : s.quiet) (hc : s.cfg.wf = true) (hready : s.ready = true)
    (hsucc : s.allSucceed (s.cfg.pollLimit + 2))
    (hnever : ∀ k, k < s.cfg.pollLimit + 2 → (s.answer k).settled = false)
    (hop : i.opcode = 3 ∨ i.opcode = 4) (hfits : s.bufferFits i = true)
    (hbuf : i.opcode ≠ 4 → (i.load s.regs).bufValid = true) (hlen : 0 < (i.load s.regs).len)
    (hrange : (i.load s.regs).addr + (i.load s.regs).len ≤ s.cfg.totalSize) :
    ∃ t r f first, exec i s = .next t ∧ first.code = 0 ∧ countMutations [first] = 1 ∧
      (s.firstPoll ((i.load s.regs).addr / s.cfg.window) r f first).TimesOut t := by
  obtain ⟨-, -, -, -, -, -, -, -, -, -, -, hlimit, -⟩ := wf_facts hc
  obtain ⟨r, hrop, hxfer⟩ := run_firstXfer hq hc hready (hsucc 0 (by omega)) (.inr hop) hbuf hlen hrange
  have hop2 : r.op ≠ 2 := by rw [hrop]; rcases hop with e | e <;> simp [e]
  obtain ⟨f, first, hvisit, hcode, hcount⟩ := firstXfer_visit hready hop2 (hsucc 1 (by omega))
  obtain ⟨hi, hr⟩ := hq
  have hpoll := (run_visit (x := s.accept (i.load s.regs)) hr hxfer nofun).trans hvisit
  have hend := firstPoll_timesOut ((i.load s.regs).addr / s.cfg.window) r f first hr hlimit hsucc hnever
  have hexec := exec_of_run_idle hc hfits hi ((run_add _ _ _).trans (congrArg _ hpoll)) hend.fsm
  exact ⟨_, r, f, first, hexec, hcode, hcount, hend⟩

end

/-- Settles O39: each of the three is a valid mutation, and times out in its first segment. -/
theorem deviceThatNeverFinishesTimesOut : Obligations.DeviceThatNeverFinishesTimesOut := by
  intro s address length i hc hq hready hsucc hnever hpos hrange hcmd
  have hvalid : (i.opcode = 3 ∨ i.opcode = 4) ∧ s.bufferFits i = true ∧
      (i.opcode ≠ 4 → (i.load s.regs).bufValid = true) ∧ (i.load s.regs).addr = address ∧
      (i.load s.regs).len = length := by
    rcases hcmd with ⟨rfl | rfl, hlen⟩ | rfl
    · exact ⟨.inl rfl, by simp [State.bufferFits, bufferTooShort_of_le hlen], fun _ => rfl, rfl, rfl⟩
    · exact ⟨.inl rfl, by simp [State.bufferFits, bufferTooShort_of_le hlen], fun _ => rfl, rfl, rfl⟩
    · exact ⟨.inr rfl, rfl, fun h => absurd rfl h, rfl, rfl⟩
  obtain ⟨hop, hfits, hbuf, haddr, hlength⟩ := hvalid
  obtain ⟨t, r, f, first, hexec, hcode, hcount, hend⟩ := exec_timesOut hq hc hready hsucc hnever hop hfits hbuf
    (hlength ▸ hpos) (haddr.symm ▸ hlength.symm ▸ hrange)
  rw [haddr] at hend
  exact ⟨t, first, hexec, hend.hr, hend.trace, hcode, hcount, hend.activeBank, hend.inFlight, hend.opened, hend.fsm⟩

end Sys2Proof.Machine
end

section
/-! Settling the statements of spec/70_reset_and_hazards.md: a reset that is due is the step (R240), and a reset due
during a command falls between two of its sequencer steps (R243, R258). No visit looks at the reset input, so a command
goes through the same states whatever reset is to come, until it is due. -/

namespace Sys2Proof.Machine

/-- Settles O54: a reset that is due is taken before anything else, at every sequencer state. -/
theorem resetAbandonsTheCommand : Obligations.ResetAbandonsTheCommand := by
  intro s later hwf hr
  have hstep : step s = .next s.tick := by simp [step, State.stepOnce, hwf, hr]
  exact ⟨Regs.reset, by rw [hstep, tick_of_due hr, State.takeReset, hr]; rfl⟩

/-! ### The peripheral does not see the reset input -/

/-- The state with another schedule of resets. -/
def State.withResets (r : List Nat) (s : State) : State := { s with resets := r }

section
variable (r : List Nat) (s : State)

@[simp] theorem withResets_fsm : (s.withResets r).fsm = s.fsm := rfl
@[simp] theorem withResets_cfg : (s.withResets r).cfg = s.cfg := rfl
@[simp] theorem withResets_regs : (s.withResets r).regs = s.regs := rfl
@[simp] theorem withResets_hb : (s.withResets r).hb = s.hb := rfl
@[simp] theorem withResets_resets : (s.withResets r).resets = r := rfl
@[simp] theorem withResets_inFlight : (s.withResets r).inFlight = s.inFlight := rfl
@[simp] theorem withResets_busy : (s.withResets r).busy = s.busy := rfl
@[simp] theorem withResets_ready : (s.withResets r).ready = s.ready := rfl
@[simp] theorem withResets_drawn : (s.withResets r).drawn = s.drawn := rfl
@[simp] theorem withResets_nextStatus : (s.withResets r).nextStatus = s.nextStatus := rfl
@[simp] theorem withResets_directReadBytes (n : Nat) : (s.withResets r).directReadBytes n = s.directReadBytes n := rfl

@[simp] theorem withResets_settle (d : Drawn) : (s.withResets r).settle d = (s.settle d).withResets r := by
  rw [State.settle, State.settle, withResets_inFlight]
  cases s.inFlight with
  | none => rfl
  | some f => cases d.ans.settled <;> rfl

@[simp] theorem withResets_called : (s.withResets r).called = s.called.withResets r :=
  withResets_settle r s.draw s.drawn

@[simp] theorem withResets_late (d : Drawn) : (s.withResets r).late d = (s.late d).withResets r := by
  rw [State.late, State.late, withResets_inFlight]
  cases s.inFlight with
  | none => rfl
  | some f => cases f <;> rfl

@[simp] theorem withResets_reconfigure (d : Drawn) :
    (s.withResets r).reconfigure d = (s.reconfigure d).withResets r := by
  rw [State.reconfigure, State.reconfigure, withResets_busy]
  split <;> rfl

@[simp] theorem withResets_sampleBusy : (s.withResets r).sampleBusy = s.sampleBusy := by
  rw [sampleBusy_eq, sampleBusy_eq]
  rfl

@[simp] theorem withResets_windowBytes (pa n : Nat) : (s.withResets r).windowBytes pa n = s.windowBytes pa n := by
  rw [State.windowBytes, withResets_called]
  rfl

@[simp] theorem withResets_statusGet : (s.withResets r).statusGet = s.statusGet.withResets r := by
  rw [State.statusGet, withResets_called, withResets_sampleBusy]
  rfl

@[simp] theorem withResets_bankSelect (b : Nat) : (s.withResets r).bankSelect b = (s.bankSelect b).withResets r := by
  simp only [State.bankSelect, withResets_called, withResets_ready]
  split <;> rfl

@[simp] theorem withResets_memRead (pa n : Nat) : (s.withResets r).memRead pa n = (s.memRead pa n).withResets r := by
  simp only [State.memRead, withResets_called, withResets_ready, withResets_windowBytes]
  split <;> rfl

@[simp] theorem withResets_program (src : List Byte) (pa n : Nat) :
    (s.withResets r).program src pa n = (s.program src pa n).withResets r := by
  simp only [State.program, withResets_called, withResets_ready, withResets_nextStatus]
  repeat' split
  all_goals rfl

@[simp] theorem withResets_eraseBlock (pa n : Nat) :
    (s.withResets r).eraseBlock pa n = (s.eraseBlock pa n).withResets r := by
  simp only [State.eraseBlock, withResets_called, withResets_ready, withResets_nextStatus]
  repeat' split
  all_goals rfl

@[simp] theorem withResets_peripheralOpen : (s.withResets r).peripheralOpen = s.peripheralOpen.withResets r := by
  rw [State.peripheralOpen, withResets_called, withResets_drawn, withResets_reconfigure]
  rfl

@[simp] theorem withResets_directWrite (bytes : List Byte) (keep : Bool) :
    (s.withResets r).directWrite bytes keep = (s.directWrite bytes keep).withResets r := by
  rw [State.directWrite, withResets_called, withResets_drawn, withResets_reconfigure]
  rfl

@[simp] theorem withResets_directRead (n : Nat) : (s.withResets r).directRead n = (s.directRead n).withResets r := by
  rw [State.directRead, withResets_called, withResets_drawn, withResets_reconfigure]
  rfl

@[simp] theorem withResets_peripheralClose : (s.withResets r).peripheralClose = s.peripheralClose.withResets r := by
  rw [State.peripheralClose, withResets_called, withResets_drawn, withResets_reconfigure]
  rfl

/-! ### No visit looks at the reset input -/

theorem withResets_checkBuffer : (s.withResets r).checkBuffer = s.checkBuffer.withResets r := by
  rw [State.checkBuffer, State.checkBuffer, State.checkRange, State.checkRange, withResets_regs, withResets_cfg]
  cases validateBuf s.regs.bufValid
  case ok => cases validateRange s.cfg s.regs.addr s.regs.len <;> rfl
  all_goals rfl

theorem withResets_checkErase : (s.withResets r).checkErase = s.checkErase.withResets r := by
  rw [State.checkErase, State.checkErase, withResets_regs, withResets_cfg]
  cases validateRange s.cfg s.regs.addr s.regs.len <;> rfl

theorem withResets_visitCheck : (s.withResets r).visitCheck = s.visitCheck.withResets r := by
  have hclear : { s.withResets r with regs := s.regs.clearLatch } =
      { s with regs := s.regs.clearLatch }.withResets r := rfl
  simp only [State.visitCheck, withResets_regs, hclear, withResets_checkBuffer, withResets_checkErase]
  split <;> rfl

theorem withResets_visitXfer : (s.withResets r).visitXfer = s.visitXfer.withResets r := by
  simp only [State.visitXfer, State.xferRead, State.xferProgram, State.xferErase, withResets_regs, withResets_hb,
    withResets_memRead, withResets_windowBytes, withResets_program, withResets_eraseBlock, withResets_nextStatus]
  repeat' split
  all_goals rfl

theorem withResets_visitPoll : (s.withResets r).visitPoll = s.visitPoll.withResets r := by
  rw [show s.visitPoll = _ from visitPoll_withRegs s.regs s,
    show (s.withResets r).visitPoll = _ from visitPoll_withRegs s.regs (s.withResets r)]
  simp only [withResets_nextStatus, withResets_sampleBusy, withResets_statusGet, withResets_drawn, withResets_late]
  repeat' split
  all_goals rfl

theorem withResets_visitClose : (s.withResets r).visitClose = s.visitClose.withResets r := by
  have hclosed : { s.withResets r with opened := false } = { s with opened := false }.withResets r := rfl
  simp only [State.visitClose, hclosed, withResets_peripheralClose, withResets_nextStatus]
  split <;> rfl

theorem withResets_visit : (s.withResets r).visit = s.visit.withResets r := by
  rw [State.visit, State.visit, withResets_fsm]
  cases s.fsm
  case idle | xlate | seg | adv | resp => rfl
  case check => exact withResets_visitCheck r s
  case xfer => exact withResets_visitXfer r s
  case poll => exact withResets_visitPoll r s
  case close => exact withResets_visitClose r s
  case bank =>
    simp only [State.visitBank, withResets_bankSelect, withResets_regs, withResets_nextStatus]
    split <;> rfl
  case hsOpen =>
    simp only [State.visitHsOpen, withResets_peripheralOpen, withResets_nextStatus]
    split <;> rfl
  case hsWren | hsWrsr | hsRdbk =>
    simp only [State.visitHsWren, State.visitHsWrsr, State.visitHsRdbk, withResets_directWrite, withResets_cfg,
      withResets_nextStatus]
    split <;> rfl
  case hsRead =>
    simp only [State.visitHsRead, withResets_directRead, withResets_directReadBytes, withResets_cfg,
      withResets_nextStatus]
    repeat' split
    all_goals rfl

end

/-! ### A command with a reset to come, sequencer step by sequencer step -/

section
variable {a s : State} {k n : Nat} {later : List Nat}

theorem ticks_resets_of_nil (hr : a.resets = []) (n : Nat) : (a.ticks n).resets = [] := by
  induction n with
  | zero => exact hr
  | succ n ih => exact ticks_succ_eq_tick n a ▸ tick_resets_of_nil ih

theorem tick_withResets (hr : a.resets = []) (k : Nat) (later : List Nat) :
    (a.withResets ((k + 1) :: later)).tick = a.tick.withResets (k :: later) := by
  rw [tick_of_later rfl, tick_of_noReset hr]
  exact withResets_visit (k :: later) a

/-- R243: until the reset is due it changes nothing of what the command does. -/
theorem ticks_withResets (hr : a.resets = []) (hn : n ≤ k) :
    (a.withResets (k :: later)).ticks n = (a.ticks n).withResets ((k - n) :: later) := by
  induction n with
  | zero => rfl
  | succ n ih =>
    rw [ticks_succ_eq_tick, ticks_succ_eq_tick, ih (by omega), show k - n = k - (n + 1) + 1 by omega,
      tick_withResets (ticks_resets_of_nil hr n)]

/-- R71: a command of a legal configuration is idle after finitely many sequencer steps; `n` is the first time. -/
theorem exists_first_idle (hc : a.cfg.wf = true) :
    ∃ n, (a.ticks n).fsm = .idle ∧ ∀ m, m < n → (a.ticks m).fsm ≠ .idle := by
  have hends : ∃ n, (a.ticks n).fsm = .idle := by
    by_contra hnever
    rw [not_exists] at hnever
    have hidle := run_fsm_of_budget hc (le_refl a.budget)
    rw [run_eq_ticks fun m _ => hnever m] at hidle
    exact hnever _ hidle
  exact ⟨Nat.find hends, Nat.find_spec hends, fun m => Nat.find_min hends⟩

/-- R243: the run of a command that is accepted with a reset due after `k` sequencer steps, as long as neither the
command has ended nor the reset is due. -/
theorem run_accept_of_later {r : Regs} (hr : s.resets = k :: later) (hn : n ≤ k)
    (hbusy : ∀ m, m < n → (((s.withResets []).accept r).ticks m).fsm ≠ .idle) :
    (s.accept r).run n = (((s.withResets []).accept r).ticks n).withResets ((k - n) :: later) := by
  have hstart : s.accept r = ((s.withResets []).accept r).withResets (k :: later) := by rw [← hr]; rfl
  rw [hstart, run_eq_ticks, ticks_withResets rfl hn]
  intro m hm
  rw [ticks_withResets rfl (by omega)]
  exact hbusy m hm

/-- R243: the reset ends a command that is still running after `k` sequencer steps. -/
theorem run_accept_of_due {r : Regs} (hr : s.resets = k :: later)
    (hbusy : ∀ m, m ≤ k → (((s.withResets []).accept r).ticks m).fsm ≠ .idle) :
    (s.accept r).run (k + 1) = ((((s.withResets []).accept r).ticks k).withResets (0 :: later)).takeReset := by
  have hk : ((((s.withResets []).accept r).ticks k).withResets (0 :: later)).fsm ≠ .idle := hbusy k le_rfl
  rw [run_add, run_accept_of_later hr le_rfl fun m hm => hbusy m hm.le, Nat.sub_self, run_succ hk, run_zero,
    tick_of_due rfl]

end

/-- Settles O55: `n` is the first time the command is idle without a reset. With one to come it makes the same steps, up
to its response or up to the reset. -/
theorem resetDuringACommandLeavesNoResponse : Obligations.ResetDuringACommandLeavesNoResponse := by
  intro i s k later hc hi hr hb a
  obtain ⟨n, hidle, hbusy⟩ := exists_first_idle (a := a) hc
  refine ⟨n, hidle, hbusy, ?response, fun hkn => ?abandoned, fun hnk => ?answered⟩
  case response =>
    have hfits : (s.withResets []).bufferFits i = true := by cases i <;> exact hb
    have hexec : exec i (s.withResets []) = .next (a.ticks n) :=
      exec_of_run_idle hc hfits hi (run_eq_ticks hbusy) hidle
    rw [exec_hr (s := s.withResets []) hc rfl hexec]
    rfl
  case abandoned =>
    exact ⟨_, exec_of_run_idle hc hb hi (run_accept_of_due hr fun m hm => hbusy m (by omega)) rfl⟩
  case answered => exact exec_of_run_idle hc hb hi (run_accept_of_later hr hnk hbusy) hidle

end Sys2Proof.Machine
end
